-- ==== Sys2Proof/Word.lean ====
section
/-! DEFINITION. The widths of the block's values: bytes, registers and the three interface words.
Every abbreviation is a `BitVec`, so its lemmas apply directly. -/

namespace Sys2Proof

/-- A byte, 8 bits, unsigned (R11). -/
abbrev Byte := BitVec 8

/-- A 16-bit field register or budget (`u16`, R11; `W_ATT` of R8). -/
abbrev Half := BitVec 16

/-- A 32-bit field or check register (`u32`, R11). -/
abbrev Word := BitVec 32

/-- `byteIndex` and `length`: `W_BI` = 9 bits (R8). -/
abbrev Index := BitVec 9

/-- `subIndex`: `W_SI` = 3 bits (R8). -/
abbrev SubIndex := BitVec 3

/-- A descriptor word, 24 bits (R81). -/
abbrev DescWord := BitVec 24

/-- A command word, 18 bits: two bits of `cmd`, sixteen of `arg` (R88). -/
abbrev CmdWord := BitVec 18

/-- A read-outcome word, 10 bits: two bits of `rsp`, eight of `data` (R88). -/
abbrev RdWord := BitVec 10

end Sys2Proof
end

