-- ==== Sys2Proof/Config.lean ====
section
/-! DEFINITION. The static parameters of one instance of the block (R8), the two descriptor programs
(R86, R87), and the values the spec leaves to the environment. -/

namespace Sys2Proof

/-- The wire format of an instance, `PROTO` (R3, R10). -/
inductive Proto where
  | imu
  | gps
  deriving DecidableEq, Repr

/-- What one read attempt on ByteSource answers (R172): a byte, a timeout or a transport error. -/
inductive ReadAnswer where
  | byte (b : Byte)
  | timeout
  | error
  deriving DecidableEq, Repr, Inhabited

/-- The static parameters of an instance (R8) with its ProtocolDescriptor (R84). Nothing writes them. Each literal of
D0 stands in one field, so that an audit can change it in one place (R251): `CHECK` is carried by the trailer entry's
kind (TSUM or TCRC), `SYNCSEQ` by the SYNC entries' constants and `PAYFIXED` by the PAYF entry's constant, and the
accessors `syncSeq` and `payFixed` read them there. -/
structure Config where
  /-- `PROTO`. -/
  proto : Proto
  /-- `CAP`, the frame buffer's capacity in bytes. -/
  cap : Nat
  /-- `SYNCLEN`. -/
  syncLen : Nat
  /-- `HDRLEN`, the offset of the first payload byte, sync bytes included. -/
  hdrLen : Nat
  /-- `TRLLEN`. -/
  trlLen : Nat
  /-- `NBUDGET`, the default read budget. -/
  nBudget : Half
  /-- The Sync and Header entries, each at its first offset (R85). -/
  entries : List (Nat × DescWord)
  /-- The payload entry (R85). -/
  payload : DescWord
  /-- The trailer entry (R85). -/
  trailer : DescWord
  /-- `TIMEOUT_FATAL`, whether a read timeout ends ACQUIRE (R177). -/
  timeoutFatal : Bool
  /-- `POLY`, the reflected CRC-32 polynomial; not used by an IMU instance. -/
  poly : Word
  /-- `CRCSEED`, the CRC's start value; not used by an IMU instance. -/
  crcSeed : Word
  deriving DecidableEq, Repr

namespace Config

/-- `BUF_RESET`, what every buffer byte holds after reset, hence what an unlisted cell reads as (R8, R39). -/
def bufReset : Byte := 0x00#8

/-- `SYNCSEQ` (R8): the constants of the first `SYNCLEN` entries, which are the SYNC entries (R86, R87). -/
def syncSeq (c : Config) : List Byte := (c.entries.take c.syncLen).map fun e => e.2.extractLsb' 0 8

/-- `MAXLEN`, the largest admitted `messageLength`: `CAP - HDRLEN - TRLLEN` (R8). -/
def maxLen (c : Config) : Nat := c.cap - c.hdrLen - c.trlLen

/-- `PAYFIXED`, the IMU payload byte count: the PAYF entry's constant (R8, R72, R130). -/
def payFixed (c : Config) : Nat := (c.payload.extractLsb' 0 8 : Byte).toNat

/-- The IMU instance: the parameters of R8 and the descriptor program of R86. -/
def imu : Config where
  proto := .imu
  cap := 38
  syncLen := 4
  hdrLen := 7
  trlLen := 1
  nBudget := 100#16
  entries :=
    [(0, 0x0200FF#24), (1, 0x0200FF#24), (2, 0x0200FF#24), (3, 0x0200FF#24),
     (4, 0x120026#24), (5, 0x1200FF#24), (6, 0x120014#24)]
  payload := 0x62001E#24
  trailer := 0x820000#24
  timeoutFatal := false
  poly := 0#32
  crcSeed := 0#32

/-- The GPS instance: the parameters of R8 and the descriptor program of R87. -/
def gps : Config where
  proto := .gps
  cap := 500
  syncLen := 3
  hdrLen := 28
  trlLen := 4
  nBudget := 1000#16
  entries :=
    [(0, 0x0200AA#24), (1, 0x020044#24), (2, 0x020012#24),
     (3, 0x12001C#24), (4, 0x341000#24), (6, 0x220000#24), (7, 0x220000#24),
     (8, 0x452000#24), (10, 0x343000#24), (12, 0x220000#24), (13, 0x220000#24),
     (14, 0x344000#24), (16, 0x385000#24), (20, 0x386000#24), (24, 0x540000#24),
     (26, 0x347000#24)]
  payload := 0x722000#24
  trailer := 0x980000#24
  timeoutFatal := false
  poly := 0xEDB88320#32
  crcSeed := 0x00000000#32

/-- The instance that `PROTO` selects; `PROTO` is the only thing that selects it (R10). -/
def ofProto : Proto → Config
  | .imu => imu
  | .gps => gps

/-- The parameters are those of R8 for the instance's `PROTO`, with either reading of `TIMEOUT_FATAL`. -/
abbrev Legal (c : Config) : Prop :=
  c = { ofProto c.proto with timeoutFatal := c.timeoutFatal }

/-- `TIMEOUT_MS`, left open by the spec and handed to ByteSource uninterpreted (R8, R172). A free value. -/
opaque timeoutMs : Nat

/-- What ByteSource answers, given the timeout and the number of the free answer: "free inputs (an oracle), under
no law" (R7). A free value, read only where `State.source` lists no further answer. -/
opaque sourceAnswer (timeoutMs attempt : Nat) : ReadAnswer

end Config
end Sys2Proof
end

