-- ==== Sys2Proof/Syntax.lean ====
section
/-! DEFINITION. The operations of the block, one constructor of `Instr` per row of spec/opcode_table.json (R80),
their operands, and the three kinds of interface word (R90). -/

namespace Sys2Proof

/-- The register a descriptor entry names in its `dest` field (R82); `none` is code 0. -/
inductive Dest where
  | none
  | messageId
  | messageLength
  | sequenceNumber
  | timeWeek
  | timeMs
  | status
  | swVersion
  deriving DecidableEq, Repr

/-- A byte operation: what one accepted input byte does (R80), with the operands its descriptor word carries. -/
inductive ByteOp where
  | sync (c : Byte)
  | cver (c : Byte)
  | pass
  | acc16 (d : Dest)
  | acc32 (d : Dest)
  | acclen
  | skip
  | payf (n : Byte)
  | payv
  | tsum
  | tcrc
  deriving DecidableEq, Repr

/-- The operations of spec/opcode_table.json: eleven byte operations, three host commands, three read outcomes (R80). -/
inductive Instr where
  /-- SYNC, R101. -/
  | sync (c : Byte)
  /-- CVER, R111. -/
  | cver (c : Byte)
  /-- PASS, R112. -/
  | pass
  /-- ACC16, R113. -/
  | acc16 (d : Dest)
  /-- ACC32, R114. -/
  | acc32 (d : Dest)
  /-- ACCLEN, R115. -/
  | acclen
  /-- SKIP, R116; its width is 2. -/
  | skip
  /-- PAYF, R130. -/
  | payf (n : Byte)
  /-- PAYV, R131. -/
  | payv
  /-- TSUM, R150. -/
  | tsum
  /-- TCRC, R152. -/
  | tcrc
  /-- STEP, R100. -/
  | step (b : Byte)
  /-- ACQUIRE, R174. -/
  | acquire (n : Half)
  /-- RESET, R170. -/
  | reset
  /-- RD_BYTE, R175. -/
  | rdByte (b : Byte)
  /-- RD_TIMEOUT, R177. -/
  | rdTimeout
  /-- RD_ERROR, R178. -/
  | rdError
  deriving DecidableEq, Repr

/-- A byte operation as an instruction. -/
def ByteOp.toInstr : ByteOp → Instr
  | .sync c => .sync c
  | .cver c => .cver c
  | .pass => .pass
  | .acc16 d => .acc16 d
  | .acc32 d => .acc32 d
  | .acclen => .acclen
  | .skip => .skip
  | .payf n => .payf n
  | .payv => .payv
  | .tsum => .tsum
  | .tcrc => .tcrc

/-- A ByteSource answer as an instruction. -/
def ReadAnswer.toInstr : ReadAnswer → Instr
  | .byte b => .rdByte b
  | .timeout => .rdTimeout
  | .error => .rdError

/-- A word at one of the block's three interfaces; the interface fixes the format (R90). -/
inductive IfaceWord where
  /-- An entry of the descriptor table, format `descriptor24` (R81). -/
  | descriptor (w : DescWord)
  /-- A word of the host's command port, format `command18` (R88). -/
  | command (w : CmdWord)
  /-- A word of ByteSource's answer port, format `readoutcome10` (R88). -/
  | outcome (w : RdWord)
  deriving DecidableEq, Repr

end Sys2Proof
end

