-- ==== Sys2Proof/WellFormed.lean ====
section
/-! DEFINITION. Which instruction terms have an encoding: an accumulate entry names no register or one whose width
is the entry's (R75: the register's width equals 8 times the entry's; R147 (c)). -/

namespace Sys2Proof

/-- The width in bits of the register a `dest` code names (R23); none for code 0. -/
def Dest.width : Dest → Option Nat
  | .none => Option.none
  | .messageId => some 16
  | .messageLength => some 16
  | .sequenceNumber => some 16
  | .timeWeek => some 16
  | .timeMs => some 32
  | .status => some 32
  | .swVersion => some 16

/-- A `w`-byte field may be written to `d`: `d` is no register, or one of exactly `8 * w` bits (R75). -/
def Dest.fits (d : Dest) (w : Nat) : Bool :=
  match d.width with
  | Option.none => true
  | some k => k == 8 * w

/-- An instruction term that the encodings of R83 and R88 can express. -/
def Instr.wf : Instr → Bool
  | .acc16 d => d.fits 2
  | .acc32 d => d.fits 4
  | .sync _ => true
  | .cver _ => true
  | .pass => true
  | .acclen => true
  | .skip => true
  | .payf _ => true
  | .payv => true
  | .tsum => true
  | .tcrc => true
  | .step _ => true
  | .acquire _ => true
  | .reset => true
  | .rdByte _ => true
  | .rdTimeout => true
  | .rdError => true

end Sys2Proof
end

