-- ==== Sys2Proof/Decode.lean ====
section
/-! DEFINITION. Decoding and encoding of the three interface words (R81 to R83, R88), total, rejecting by name;
the opcode table's rows; and the host's numbering of a table row's bits. -/

namespace Sys2Proof

/-- Why a word has no operation. -/
inductive DecodeReject where
  /-- Descriptor bits 11:8 are not 0 (R83). -/
  | reservedBits
  /-- Descriptor kind 10 to 15 (R83). -/
  | reservedKind
  /-- A width that its kind does not have (R83). -/
  | reservedWidth
  /-- A `dest` code 8 to 15 (R82), or a register whose width is not the entry's (R75). -/
  | badDest
  /-- A `nz`, `dest` or `const` field that the kind's pattern fixes to another value (R83). -/
  | strayField
  /-- `cmd` = 00: no command (R88). -/
  | noCommand
  /-- A STEP or RESET word with argument bits the pattern fixes to 0 (R88). -/
  | strayArgument
  /-- `rsp` = 11 (R88). -/
  | reservedOutcome
  /-- An RD_TIMEOUT or RD_ERROR word with data bits (R88). -/
  | strayData
  deriving DecidableEq, Repr

/-! ### The descriptor word (R81) -/

/-- Bits 23:20. -/
def descKind (w : DescWord) : BitVec 4 := w.extractLsb' 20 4
/-- Bits 19:17. -/
def descWidth (w : DescWord) : BitVec 3 := w.extractLsb' 17 3
/-- Bit 16. -/
def descNz (w : DescWord) : BitVec 1 := w.extractLsb' 16 1
/-- Bits 15:12. -/
def descDest (w : DescWord) : BitVec 4 := w.extractLsb' 12 4
/-- Bits 11:8. -/
def descReserved (w : DescWord) : BitVec 4 := w.extractLsb' 8 4
/-- Bits 7:0. -/
def descConst (w : DescWord) : Byte := w.extractLsb' 0 8

/-- The `dest` code of a register (R82). -/
def Dest.code : Dest → BitVec 4
  | .none => 0#4
  | .messageId => 1#4
  | .messageLength => 2#4
  | .sequenceNumber => 3#4
  | .timeWeek => 4#4
  | .timeMs => 5#4
  | .status => 6#4
  | .swVersion => 7#4

/-- The register a `dest` code names; codes 8 to 15 are reserved (R82). -/
def Dest.ofCode (c : BitVec 4) : Option Dest :=
  if c = 0#4 then some .none
  else if c = 1#4 then some .messageId
  else if c = 2#4 then some .messageLength
  else if c = 3#4 then some .sequenceNumber
  else if c = 4#4 then some .timeWeek
  else if c = 5#4 then some .timeMs
  else if c = 6#4 then some .status
  else if c = 7#4 then some .swVersion
  else Option.none

/-- The register operand of a `w`-byte accumulate entry. -/
def decodeDest (w : Nat) (c : BitVec 4) : Except DecodeReject Dest :=
  match Dest.ofCode c with
  | some d => if d.fits w then .ok d else .error .badDest
  | Option.none => .error .badDest

/-- The fields that the pattern of `op` fixes to 0 or to a code are so; else the word is rejected (R83). -/
def requireFields (holds : Bool) (op : ByteOp) : Except DecodeReject ByteOp :=
  if holds then .ok op else .error .strayField

/-- The byte operation of a descriptor word, row by row of R83's table. -/
def decodeByteOp (w : DescWord) : Except DecodeReject ByteOp :=
  if descReserved w ≠ 0#4 then .error .reservedBits
  else if descKind w = 0#4 ∧ descWidth w = 1#3 then
    requireFields (descNz w == 0#1 && descDest w == 0#4) (.sync (descConst w))
  else if descKind w = 1#4 ∧ descWidth w = 1#3 then
    requireFields (descNz w == 0#1 && descDest w == 0#4) (.cver (descConst w))
  else if descKind w = 2#4 ∧ descWidth w = 1#3 then
    requireFields (descNz w == 0#1 && descDest w == 0#4 && descConst w == 0#8) .pass
  else if descKind w = 3#4 ∧ descWidth w = 2#3 then
    (decodeDest 2 (descDest w)).bind fun d =>
      requireFields (descNz w == 0#1 && descConst w == 0#8) (.acc16 d)
  else if descKind w = 3#4 ∧ descWidth w = 4#3 then
    (decodeDest 4 (descDest w)).bind fun d =>
      requireFields (descNz w == 0#1 && descConst w == 0#8) (.acc32 d)
  else if descKind w = 4#4 ∧ descWidth w = 2#3 then
    requireFields (descNz w == 1#1 && descDest w == 2#4 && descConst w == 0#8) .acclen
  else if descKind w = 5#4 ∧ descWidth w = 2#3 then
    requireFields (descNz w == 0#1 && descDest w == 0#4 && descConst w == 0#8) .skip
  else if descKind w = 6#4 ∧ descWidth w = 1#3 then
    requireFields (descNz w == 0#1 && descDest w == 0#4) (.payf (descConst w))
  else if descKind w = 7#4 ∧ descWidth w = 1#3 then
    requireFields (descNz w == 0#1 && descDest w == 2#4 && descConst w == 0#8) .payv
  else if descKind w = 8#4 ∧ descWidth w = 1#3 then
    requireFields (descNz w == 0#1 && descDest w == 0#4 && descConst w == 0#8) .tsum
  else if descKind w = 9#4 ∧ descWidth w = 4#3 then
    requireFields (descNz w == 0#1 && descDest w == 0#4 && descConst w == 0#8) .tcrc
  else if 10 ≤ (descKind w).toNat then .error .reservedKind
  else .error .reservedWidth

/-! ### The command and read-outcome words (R88) -/

/-- The command of an 18-bit command word. -/
def decodeCommand (w : CmdWord) : Except DecodeReject Instr :=
  if w.extractLsb' 16 2 = 0#2 then .error .noCommand
  else if w.extractLsb' 16 2 = 1#2 then
    if w.extractLsb' 8 8 = 0#8 then .ok (.step (w.extractLsb' 0 8)) else .error .strayArgument
  else if w.extractLsb' 16 2 = 2#2 then .ok (.acquire (w.extractLsb' 0 16))
  else if w.extractLsb' 0 16 = 0#16 then .ok .reset
  else .error .strayArgument

/-- ByteSource's answer in a 10-bit read-outcome word. -/
def decodeAnswer (w : RdWord) : Except DecodeReject ReadAnswer :=
  if w.extractLsb' 8 2 = 0#2 then .ok (.byte (w.extractLsb' 0 8))
  else if w.extractLsb' 8 2 = 1#2 then
    if w.extractLsb' 0 8 = 0#8 then .ok .timeout else .error .strayData
  else if w.extractLsb' 8 2 = 2#2 then
    if w.extractLsb' 0 8 = 0#8 then .ok .error else .error .strayData
  else .error .reservedOutcome

/-- The decoder: the instruction of a word at one of the three interfaces. -/
def decode : IfaceWord → Except DecodeReject Instr
  | .descriptor w => (decodeByteOp w).map ByteOp.toInstr
  | .command w => decodeCommand w
  | .outcome w => (decodeAnswer w).map ReadAnswer.toInstr

/-! ### Encoding -/

/-- A descriptor word from its fields, most significant first, the reserved field 0 (R81). -/
def descWord (kind : BitVec 4) (width : BitVec 3) (nz : BitVec 1) (dest : BitVec 4) (const : Byte) : DescWord :=
  kind ++ width ++ nz ++ dest ++ 0#4 ++ const

/-- A command word from `cmd` and `arg` (R88). -/
def cmdWord (cmd : BitVec 2) (arg : Half) : CmdWord := cmd ++ arg

/-- A read-outcome word from `rsp` and `data` (R88). -/
def rdWord (rsp : BitVec 2) (data : Byte) : RdWord := rsp ++ data

/-- The read-outcome word of an answer (R88). -/
def ReadAnswer.word : ReadAnswer → RdWord
  | .byte b => rdWord 0#2 b
  | .timeout => rdWord 1#2 0#8
  | .error => rdWord 2#2 0#8

/-- The word of an instruction, by the tables of R83 and R88. -/
def encode : Instr → IfaceWord
  | .sync c => .descriptor (descWord 0#4 1#3 0#1 0#4 c)
  | .cver c => .descriptor (descWord 1#4 1#3 0#1 0#4 c)
  | .pass => .descriptor (descWord 2#4 1#3 0#1 0#4 0#8)
  | .acc16 d => .descriptor (descWord 3#4 2#3 0#1 d.code 0#8)
  | .acc32 d => .descriptor (descWord 3#4 4#3 0#1 d.code 0#8)
  | .acclen => .descriptor (descWord 4#4 2#3 1#1 2#4 0#8)
  | .skip => .descriptor (descWord 5#4 2#3 0#1 0#4 0#8)
  | .payf n => .descriptor (descWord 6#4 1#3 0#1 0#4 n)
  | .payv => .descriptor (descWord 7#4 1#3 0#1 2#4 0#8)
  | .tsum => .descriptor (descWord 8#4 1#3 0#1 0#4 0#8)
  | .tcrc => .descriptor (descWord 9#4 4#3 0#1 0#4 0#8)
  | .step b => .command (cmdWord 1#2 (0#8 ++ b))
  | .acquire n => .command (cmdWord 2#2 n)
  | .reset => .command (cmdWord 3#2 0#16)
  | .rdByte b => .outcome (rdWord 0#2 b)
  | .rdTimeout => .outcome (rdWord 1#2 0#8)
  | .rdError => .outcome (rdWord 2#2 0#8)

/-! ### The opcode table's rows and numbering -/

/-- The word's bits agree with a row of spec/opcode_table.json of the same format: masked, they are the row's match. -/
def IfaceWord.fitsRow (x : IfaceWord) (row : IfaceWord × IfaceWord) : Bool :=
  match x, row with
  | .descriptor w, (.descriptor mask, .descriptor m) => w &&& mask == m
  | .command w, (.command mask, .command m) => w &&& mask == m
  | .outcome w, (.outcome mask, .outcome m) => w &&& mask == m
  | .descriptor _, _ => false
  | .command _, _ => false
  | .outcome _, _ => false

/-- The row of an instruction in spec/opcode_table.json, as (mask, match). -/
def Instr.row : Instr → IfaceWord × IfaceWord
  | .sync _ => (.descriptor 0xFFFF00#24, .descriptor 0x020000#24)
  | .cver _ => (.descriptor 0xFFFF00#24, .descriptor 0x120000#24)
  | .pass => (.descriptor 0xFFFFFF#24, .descriptor 0x220000#24)
  | .acc16 _ => (.descriptor 0xFF0FFF#24, .descriptor 0x340000#24)
  | .acc32 _ => (.descriptor 0xFF0FFF#24, .descriptor 0x380000#24)
  | .acclen => (.descriptor 0xFFFFFF#24, .descriptor 0x452000#24)
  | .skip => (.descriptor 0xFFFFFF#24, .descriptor 0x540000#24)
  | .payf _ => (.descriptor 0xFFFF00#24, .descriptor 0x620000#24)
  | .payv => (.descriptor 0xFFFFFF#24, .descriptor 0x722000#24)
  | .tsum => (.descriptor 0xFFFFFF#24, .descriptor 0x820000#24)
  | .tcrc => (.descriptor 0xFFFFFF#24, .descriptor 0x980000#24)
  | .step _ => (.command 0x3FF00#18, .command 0x10000#18)
  | .acquire _ => (.command 0x30000#18, .command 0x20000#18)
  | .reset => (.command 0x3FFFF#18, .command 0x30000#18)
  | .rdByte _ => (.outcome 0x300#10, .outcome 0x000#10)
  | .rdTimeout => (.outcome 0x3FF#10, .outcome 0x100#10)
  | .rdError => (.outcome 0x3FF#10, .outcome 0x200#10)

/-- The interface word meant by a table row's bits `w` and its width `nbits` in whole bytes. At most 16 bits is a
read outcome, at most 23 a command; 24 bits or more is a descriptor word, or a command word where the bits are no
descriptor word and fit in 18. DESIGN CHOICE (log entry 16): the three formats belong to three interfaces, and the
width alone leaves SYNC `c` and ACQUIRE `c` the same 24 bits; such bits are read as the descriptor word. -/
def tableWord (nbits w : Nat) : Option IfaceWord :=
  if nbits ≤ 16 then
    if w < 2 ^ 10 then some (.outcome (BitVec.ofNat 10 w)) else none
  else if nbits < 24 then
    if w < 2 ^ 18 then some (.command (BitVec.ofNat 18 w)) else none
  else if w < 2 ^ 24 then
    match decodeByteOp (BitVec.ofNat 24 w) with
    | .ok _ => some (.descriptor (BitVec.ofNat 24 w))
    | .error _ =>
      if w < 2 ^ 18 then some (.command (BitVec.ofNat 18 w)) else some (.descriptor (BitVec.ofNat 24 w))
  else none

/-- The instruction the decoder reads from a table row's bits; none where it rejects them. -/
def decodeTableWord (nbits w : Nat) : Option Instr :=
  match tableWord nbits w with
  | none => none
  | some x =>
    match decode x with
    | .ok i => some i
    | .error _ => none

end Sys2Proof
end

