-- ==== Sys2Proof/Machine/State.lean ====
section
/-! DEFINITION. The state of one instance (R20), the reasons a step stops, and the state after reset (R39). -/

namespace Sys2Proof.Machine

/-- The frame buffer `buf` as (offset, byte) pairs, offsets strictly rising, no cell listed that holds `BUF_RESET`;
an unlisted offset reads as `BUF_RESET` (R21, R39). -/
abbrev Memory := List Host.Cell

/-- The cursor's `stage` (R24). -/
inductive Stage where
  | sync
  | header
  | payload
  | trailer
  deriving DecidableEq, Repr

/-- The numeric code of a stage: the order of R24. -/
def Stage.code : Stage → BitVec 2
  | .sync => 0#2
  | .header => 1#2
  | .payload => 2#2
  | .trailer => 3#2

/-- What the last STEP or ACQUIRE found wrong, `event` (R31, R201). -/
inductive Event where
  | none
  | syncMismatch
  | headerFieldInvalid
  | checksumMismatch
  | crcMismatch
  deriving DecidableEq, Repr

/-- The numeric code of an event (R31); codes 5 to 7 are never produced (R201). -/
def Event.code : Event → BitVec 3
  | .none => 0#3
  | .syncMismatch => 1#3
  | .headerFieldInvalid => 2#3
  | .checksumMismatch => 3#3
  | .crcMismatch => 4#3

/-- The outcome of the last ACQUIRE, `acq_result` (R33). -/
inductive AcqResult where
  | frame
  | noFrame
  | transportError
  | idle
  deriving DecidableEq, Repr

/-- The numeric code of an ACQUIRE outcome (R33). -/
def AcqResult.code : AcqResult → BitVec 2
  | .frame => 0#2
  | .noFrame => 1#2
  | .transportError => 2#2
  | .idle => 3#2

/-- The reasons the machine stops with a fault. -/
inductive Fault where
  /-- A byte operation stores at an offset that is not below `CAP`, where the buffer has no cell (R21, R54). Raised by
  every storing byte operation; safe: no cursor that R27 allows reaches it. -/
  | bufferRange (offset : Nat)
  deriving DecidableEq, Repr

/-- The reasons a step has no meaning. -/
inductive Refusal where
  /-- The instruction has no meaning in this model yet. Raised by `exec`'s arms only; safe. -/
  | notModelled (mnemonic : String)
  /-- The word at the interface has no operation (R83, R88, R221). Raised by the fetch and by STEP and ACQUIRE; safe. -/
  | illegalWord (why : DecodeReject)
  /-- No descriptor entry has the cursor's `byteIndex` as its first offset; R27 excludes it. Raised by the
  fetch of a byte operation; safe. -/
  | noDescriptorEntry (offset : Nat)
  /-- A command, or a read outcome, meets an operation that is not finished (R63, R221, R244). Raised by STEP, ACQUIRE,
  RESET, RD_BYTE, RD_TIMEOUT and RD_ERROR; safe. -/
  | overlap
  /-- A read outcome with no ACQUIRE in progress: the block reads nothing then (R182). Raised by RD_BYTE,
  RD_TIMEOUT and RD_ERROR; safe. -/
  | noReadPending
  /-- A byte operation without an input byte (R100: every byte operation takes one). Raised by the byte operations; safe. -/
  | noInputByte
  deriving DecidableEq, Repr

/-- The state of one instance: the registers of R20, the operation in progress, and the words on its interfaces. -/
structure State where
  /-- The instance's static parameters and descriptor (R8, R34): constant, carried here so that one step
  function serves both formats (log entries 1 and 2). -/
  cfg : Config
  /-- The frame buffer (R21). -/
  buf : Memory
  /-- Bytes of the last reported frame (R22). -/
  length : Index
  /-- GPS field register (R23). -/
  messageId : Half
  /-- GPS field register, read by PAYV (R23). -/
  messageLength : Half
  /-- GPS field register (R23). -/
  sequenceNumber : Half
  /-- GPS field register (R23). -/
  timeWeek : Half
  /-- GPS field register (R23). -/
  timeMs : Word
  /-- GPS field register (R23). -/
  status : Word
  /-- GPS field register (R23). -/
  swVersion : Half
  /-- Cursor (R24). -/
  stage : Stage
  /-- Cursor: offset of the field now being received (R25). -/
  byteIndex : Index
  /-- Cursor: bytes of the current field already received (R26). -/
  subIndex : SubIndex
  /-- The last STEP completed a reported frame (R29). -/
  ready : Bool
  /-- The last completed trailer compared equal (R30). -/
  checkOk : Bool
  /-- What the last STEP or ACQUIRE found wrong (R31). -/
  event : Event
  /-- The received check value of the last completed trailer (R32). -/
  rxCheck : Word
  /-- The computed check value of the last completed trailer (R32). -/
  calcCheck : Word
  /-- Read attempts of the current or last ACQUIRE (R33). -/
  attempts : Half
  /-- The outcome of the last ACQUIRE (R33). -/
  acqResult : AcqResult
  /-- The accepted input byte whose byte operation is due (log entry 5). -/
  byteIn : Option Byte
  /-- The budget `N` of the ACQUIRE in progress, which waits for a read outcome (R173, log entry 6). -/
  budget : Option Half
  /-- The host's commands not yet taken, in order (D24: the model's command sequence is a list). -/
  commands : List CmdWord
  /-- ByteSource's answers on hand, in order (R172). -/
  source : List RdWord
  /-- How many free answers have been taken (log entry 7); the model's own. -/
  freeReads : Nat
  deriving DecidableEq, Repr

/-- The outcome of an instruction. -/
abbrev Result := Host.Outcome State Fault Refusal

/-- An instance right after reset (R39), nothing on its interfaces. -/
def State.resetOf (c : Config) : State where
  cfg := c
  buf := []
  length := 0#9
  messageId := 0#16
  messageLength := 0#16
  sequenceNumber := 0#16
  timeWeek := 0#16
  timeMs := 0#32
  status := 0#32
  swVersion := 0#16
  stage := .sync
  byteIndex := 0#9
  subIndex := 0#3
  ready := false
  checkOk := false
  event := .none
  rxCheck := 0#32
  calcCheck := 0#32
  attempts := 0#16
  acqResult := .idle
  byteIn := none
  budget := none
  commands := []
  source := []
  freeReads := 0

/-- The machine right after reset: a GPS instance (DESIGN CHOICE, log entry 1; `State.resetOf Config.imu` is the other). -/
def State.reset : State := State.resetOf Config.gps

end Sys2Proof.Machine
end

