-- ==== Sys2Proof/Machine/Ops.lean ====
section
/-! DEFINITION. The shared operations over the frame buffer, the cursor and the state: reading and storing a byte,
`advance` and `raise` (the block's whole "trap" entry), what RESET writes, and the start and end of an ACQUIRE. -/

namespace Sys2Proof.Machine

/-- The first outcome, and then `f` on its state where it is a next state. -/
def andThen (o : Result) (f : State → Result) : Result :=
  match o with
  | .next s => f s
  | .fault r => .fault r
  | .refused r => .refused r

/-! ### The frame buffer -/

/-- The byte of the buffer at an offset; `BUF_RESET` where none is listed (R21, R39). -/
def Memory.read : Memory → Nat → Byte
  | [], _ => Config.bufReset
  | (a, v) :: m, x => if x = a then v else Memory.read m x

/-- The buffer without any listing of an offset. -/
def Memory.erase : Memory → Nat → Memory
  | [], _ => []
  | (a, v) :: m, x => if x = a then Memory.erase m x else (a, v) :: Memory.erase m x

/-- The buffer with a cell listed before the first larger offset. -/
def Memory.insert : Memory → Nat → Byte → Memory
  | [], x, v => [(x, v)]
  | (a, u) :: m, x, v => if x < a then (x, v) :: (a, u) :: m else (a, u) :: Memory.insert m x v

/-- The buffer after one byte is stored; a cell that holds `BUF_RESET` is not listed. -/
def Memory.write (m : Memory) (x : Nat) (v : Byte) : Memory :=
  if v = Config.bufReset then m.erase x else (m.erase x).insert x v

/-- The canonical form from offset `lo` up: offsets strictly rising, no cell that holds `BUF_RESET`. -/
def Memory.wfFrom : Nat → Memory → Bool
  | _, [] => true
  | lo, (a, v) :: m => lo ≤ a && v != Config.bufReset && Memory.wfFrom (a + 1) m

/-- The canonical form. -/
def Memory.wf (m : Memory) : Bool := Memory.wfFrom 0 m

/-- `buf[a .. a+n-1]`, lowest offset first (R13). -/
def Memory.slice (m : Memory) : Nat → Nat → List Byte
  | _, 0 => []
  | a, n + 1 => Memory.read m a :: Memory.slice m (a + 1) n

/-- The host's read of the buffer: any offset below `CAP`, at any time, without effect (R21, R56, R59). -/
def State.hostRead (s : State) (a : Nat) : Option Byte :=
  if a < s.cfg.cap then some (s.buf.read a) else none

/-- `buf[a] <- b`, then `k`; offset `a` must be below `CAP` (R13, R53, R54). -/
def storeByte (a : Nat) (b : Byte) (s : State) (k : State → Result) : Result :=
  if a < s.cfg.cap then k { s with buf := s.buf.write a b } else .fault (.bufferRange a)

/-! ### The cursor -/

/-- `cursor <- (st, i, j)` (R13). -/
def State.setCursor (s : State) (st : Stage) (i : Index) (j : SubIndex) : State :=
  { s with stage := st, byteIndex := i, subIndex := j }

/-- `raise E`, the entry of every step-level condition (R13, R210): resync, and the event's code; nothing is saved. The
return (R212) is none: the next STEP is an ordinary SYNC. -/
def State.raise (s : State) (e : Event) : State :=
  { s.setCursor .sync 0#9 0#3 with event := e }

/-- `advance(w)` (R110): the entry is finished; at `HDRLEN` the Payload stage begins (R117). -/
def State.advance (s : State) (w : Nat) : State :=
  let i := s.byteIndex + BitVec.ofNat 9 w
  { s with
    subIndex := 0#3
    byteIndex := i
    stage := if i.toNat = s.cfg.hdrLen then .payload else s.stage }

/-- Takes the accepted input byte for the byte operation `f` (R100). -/
def takeInput (s : State) (f : Byte → State → Result) : Result :=
  match s.byteIn with
  | none => .refused .noInputByte
  | some b => f b { s with byteIn := none }

/-! ### Commands -/

/-- An operation is in progress on the instance: an ACQUIRE waits for a read outcome, or an accepted byte waits for
its byte operation (R63, R244). -/
def State.busy (s : State) : Bool := s.budget.isSome || s.byteIn.isSome

/-- What RESET writes (R170, R39); the words waiting on the interfaces are not the instance's and stay. -/
def State.resetRegisters (s : State) : State :=
  { s.setCursor .sync 0#9 0#3 with
    buf := []
    length := 0#9
    messageId := 0#16
    messageLength := 0#16
    sequenceNumber := 0#16
    timeWeek := 0#16
    timeMs := 0#32
    status := 0#32
    swVersion := 0#16
    ready := false
    checkOk := false
    event := .none
    rxCheck := 0#32
    calcCheck := 0#32
    attempts := 0#16
    acqResult := .idle }

/-- ACQUIRE's start: what it clears (R179), no attempt made yet (R174). -/
def State.beginAcquire (s : State) (n : Half) : State :=
  { s with ready := false, event := .none, attempts := 0#16, budget := some n }

/-- ACQUIRE's end with an outcome (R174); decoder state is left as it is (R176, R178). -/
def State.endAcquire (s : State) (r : AcqResult) : State :=
  { s with acqResult := r, budget := none }

/-- The `while attempts < N` test of R174: go on, or end with NO_FRAME. -/
def State.testBudget (s : State) (n : Half) : State :=
  if s.attempts.toNat < n.toNat then s else s.endAcquire .noFrame

end Sys2Proof.Machine
end

