-- ==== Sys2Proof/Machine/Operands.lean ====
section
/-! DEFINITION. Operand forms: the little-endian merge, the register a descriptor entry names, and the descriptor
entry the cursor selects. -/

namespace Sys2Proof.Machine

/-- `LE(bytes)`: the first byte is the least significant (R51). -/
def le : List Byte → Nat
  | [] => 0
  | b :: bs => b.toNat + 256 * le bs

/-- `LE(buf[a .. a+w-1])` (R51, R75). -/
def State.leAt (s : State) (a w : Nat) : Nat := le (s.buf.slice a w)

/-- Writes an assembled value to the register an entry names; code 0 names none (R75, R82). -/
def State.writeField (s : State) (d : Dest) (v : Nat) : State :=
  match d with
  | .none => s
  | .messageId => { s with messageId := BitVec.ofNat 16 v }
  | .messageLength => { s with messageLength := BitVec.ofNat 16 v }
  | .sequenceNumber => { s with sequenceNumber := BitVec.ofNat 16 v }
  | .timeWeek => { s with timeWeek := BitVec.ofNat 16 v }
  | .timeMs => { s with timeMs := BitVec.ofNat 32 v }
  | .status => { s with status := BitVec.ofNat 32 v }
  | .swVersion => { s with swVersion := BitVec.ofNat 16 v }

/-- The value of the register an entry names, unsigned; 0 for code 0 (R23, R82). -/
def State.readField (s : State) (d : Dest) : Nat :=
  match d with
  | .none => 0
  | .messageId => s.messageId.toNat
  | .messageLength => s.messageLength.toNat
  | .sequenceNumber => s.sequenceNumber.toNat
  | .timeWeek => s.timeWeek.toNat
  | .timeMs => s.timeMs.toNat
  | .status => s.status.toNat
  | .swVersion => s.swVersion.toNat

/-- The entry whose first offset is `i`, if there is one (R85). -/
def lookupEntry : List (Nat × DescWord) → Nat → Option DescWord
  | [], _ => none
  | (o, w) :: es, i => if i = o then some w else lookupEntry es i

/-- The table with the entry at first offset `i` replaced by, or a new entry of, `w`. -/
def setEntry : List (Nat × DescWord) → Nat → DescWord → List (Nat × DescWord)
  | [], i, w => [(i, w)]
  | (o, v) :: es, i, w => if i = o then (o, w) :: es else (o, v) :: setEntry es i w

/-- The descriptor word of the next byte: `DESC(byteIndex)` in the Sync and Header stages, the payload entry or
the trailer entry after them (R85). -/
def State.entryWord (s : State) : Option DescWord :=
  match s.stage with
  | .sync => lookupEntry s.cfg.entries s.byteIndex.toNat
  | .header => lookupEntry s.cfg.entries s.byteIndex.toNat
  | .payload => some s.cfg.payload
  | .trailer => some s.cfg.trailer

/-- The byte operation of the next byte, STEP's dispatch (R100, R110). -/
def State.selectOp (s : State) : Except Refusal ByteOp :=
  match s.entryWord with
  | none => .error (.noDescriptorEntry s.byteIndex.toNat)
  | some w =>
    match decodeByteOp w with
    | .ok op => .ok op
    | .error why => .error (.illegalWord why)

end Sys2Proof.Machine
end

