-- ==== Sys2Proof/Machine/Flags.lean ====
section
/-! DEFINITION. The checksum engine (R140 to R146) and the flags STEP clears (R100). -/

namespace Sys2Proof.Machine

/-- `SUM8(bytes)`: the sum of the bytes, modulo 256 (R140). -/
def sum8 (bs : List Byte) : Byte := BitVec.ofNat 8 (bs.map BitVec.toNat).sum

/-- One shift of the bit-reflected recurrence with the polynomial `POLY` (R141). -/
def crcShift (poly c : Word) : Word :=
  if c.extractLsb' 0 1 = 1#1 then (c >>> 1) ^^^ poly else c >>> 1

/-- `n` shifts of the recurrence. -/
def crcShifts (poly : Word) : Nat → Word → Word
  | 0, c => c
  | n + 1, c => crcShifts poly n (crcShift poly c)

/-- `CRCTAB[i]` of a polynomial, by its recurrence of eight shifts (R141). -/
def crcTab (poly : Word) (i : Byte) : Word := crcShifts poly 8 (i.setWidth 32)

/-- `crc_update(crc, byte)` (R143). -/
def crcUpdate (poly crc : Word) (b : Byte) : Word :=
  (crc >>> 8) ^^^ crcTab poly ((crc ^^^ b.setWidth 32).extractLsb' 0 8)

/-- The fold of `crc_update` over the bytes from a given value. -/
def crcFrom (poly : Word) : Word → List Byte → Word
  | c, [] => c
  | c, b :: bs => crcFrom poly (crcUpdate poly c b) bs

/-- `CRC32(bytes)` with the instance's `POLY`, seeded at its `CRCSEED`, no final XOR (R144). -/
def crc32 (c : Config) (bs : List Byte) : Word := crcFrom c.poly c.crcSeed bs

/-- `BSWAP32(v)`, the byte order reversed (R145). -/
def bswap32 (v : Word) : Word :=
  v.extractLsb' 0 8 ++ v.extractLsb' 8 8 ++ v.extractLsb' 16 8 ++ v.extractLsb' 24 8

/-- What STEP clears first: `ready` and `event` (R100, R29, R31). -/
def State.clearFlags (s : State) : State := { s with ready := false, event := .none }

/-- `event` after a CRC comparison (R152). -/
def crcEvent (equal : Bool) : Event := if equal then .none else .crcMismatch

end Sys2Proof.Machine
end

