-- ==== Sys2Proof/Machine/Header.lean ====
section
/-! DEFINITION. The Header stage: CVER, PASS, ACC16, ACC32, ACCLEN and SKIP (R110 to R118). -/

namespace Sys2Proof.Machine

/-- CVER (R111): the byte must equal the entry's constant; else HeaderFieldInvalid and the byte is discarded. -/
def execCver (c : Byte) (s : State) : Result :=
  takeInput s fun b s =>
    if b = c then storeByte s.byteIndex.toNat b s fun s => .next (s.advance 1)
    else .next (s.raise .headerFieldInvalid)

/-- PASS (R112): the byte is stored as it is. -/
def execPass (s : State) : Result :=
  takeInput s fun b s => storeByte s.byteIndex.toNat b s fun s => .next (s.advance 1)

/-- The accumulate contract (R118): store at `byteIndex + subIndex`, count, and `finish` at the `w`-th byte. -/
def accumulate (w : Nat) (finish : State → State) (s : State) : Result :=
  takeInput s fun b s =>
    storeByte (s.byteIndex.toNat + s.subIndex.toNat) b s fun s =>
      let s := { s with subIndex := s.subIndex + 1#3 }
      .next (if s.subIndex.toNat = w then finish s else s)

/-- ACC16 (R113). -/
def execAcc16 (d : Dest) (s : State) : Result :=
  accumulate 2 (fun s => (s.writeField d (s.leAt s.byteIndex.toNat 2)).advance 2) s

/-- ACC32 (R114). -/
def execAcc32 (d : Dest) (s : State) : Result :=
  accumulate 4 (fun s => (s.writeField d (s.leAt s.byteIndex.toNat 4)).advance 4) s

/-- The end of ACCLEN (R115): `messageLength` is written, then validated. -/
def finishLength (s : State) : State :=
  let s := s.writeField .messageLength (s.leAt s.byteIndex.toNat 2)
  if s.messageLength.toNat = 0 ∨ s.cfg.maxLen < s.messageLength.toNat then s.raise .headerFieldInvalid
  else s.advance 2

/-- ACCLEN (R115). -/
def execAcclen (s : State) : Result := accumulate 2 finishLength s

/-- SKIP (R116), of width 2: the byte is counted and stored nowhere. -/
def execSkip (s : State) : Result :=
  takeInput s fun _ s =>
    let s := { s with subIndex := s.subIndex + 1#3 }
    .next (if s.subIndex.toNat = 2 then s.advance 2 else s)

end Sys2Proof.Machine
end

