-- ==== Sys2Proof/Machine/Payload.lean ====
section
/-! DEFINITION. The Payload stage: PAYF and PAYV (R130 to R132). -/

namespace Sys2Proof.Machine

/-- A payload byte of a payload of `n` bytes: stored uninterpreted; after the `n`-th the Trailer stage begins (R130, R131). -/
def copyPayload (n : State → Nat) (s : State) : Result :=
  takeInput s fun b s =>
    storeByte s.byteIndex.toNat b s fun s =>
      let i := s.byteIndex + 1#9
      .next { s with byteIndex := i, stage := if i.toNat = s.cfg.hdrLen + n s then .trailer else s.stage }

/-- PAYF (R130): the count is the entry's constant. -/
def execPayf (n : Byte) (s : State) : Result := copyPayload (fun _ => n.toNat) s

/-- PAYV (R131): the count is `messageLength`. -/
def execPayv (s : State) : Result := copyPayload (fun s => s.messageLength.toNat) s

end Sys2Proof.Machine
end

