-- ==== Sys2Proof/Machine/Sync.lean ====
section
/-! DEFINITION. The Sync stage: SYNC (R101). -/

namespace Sys2Proof.Machine

/-- SYNC (R101): a byte equal to the entry's constant is stored and the cursor advances, into the Header stage at
`SYNCLEN`; any other byte is discarded with SyncMismatch. -/
def execSync (c : Byte) (s : State) : Result :=
  takeInput s fun b s =>
    if b = c then
      storeByte s.byteIndex.toNat b s fun s =>
        let i := s.byteIndex + 1#9
        .next { s with byteIndex := i, stage := if i.toNat = s.cfg.syncLen then .header else s.stage }
    else .next (s.raise .syncMismatch)

end Sys2Proof.Machine
end

