-- ==== Sys2Proof/Machine/Trailer.lean ====
section
/-! DEFINITION. The Trailer stage: TSUM and TCRC (R150 to R155). -/

namespace Sys2Proof.Machine

/-- TSUM (R150): the sum of `buf[0 .. byteIndex-1]` is taken before the store; the frame is reported only on accept. -/
def execTsum (s : State) : Result :=
  takeInput s fun b s =>
    let sum := sum8 (s.buf.slice 0 s.byteIndex.toNat)
    storeByte s.byteIndex.toNat b s fun s =>
      let s := { s with calcCheck := sum.setWidth 32, rxCheck := b.setWidth 32 }
      if sum = b then
        .next ({ s with checkOk := true, length := s.byteIndex + 1#9, ready := true }.setCursor .sync 0#9 0#3)
      else .next ({ s with checkOk := false }.raise .checksumMismatch)

/-- The end of TCRC (R152): the frame is reported whatever the comparison says (R153). -/
def finishCrc (s : State) : State :=
  let rx : Word := BitVec.ofNat 32 (s.leAt s.byteIndex.toNat 4)
  let c := crc32 s.cfg (s.buf.slice 0 s.byteIndex.toNat)
  let equal := bswap32 c == rx
  { s with
    rxCheck := rx
    calcCheck := c
    checkOk := equal
    length := s.byteIndex + 4#9
    ready := true
    stage := .sync
    byteIndex := 0#9
    subIndex := 0#3
    event := crcEvent equal }

/-- TCRC (R152): the four bytes are stored and counted; the fourth completes the frame. -/
def execTcrc (s : State) : Result :=
  takeInput s fun b s =>
    storeByte (s.byteIndex.toNat + s.subIndex.toNat) b s fun s =>
      let s := { s with subIndex := s.subIndex + 1#3 }
      .next (if s.subIndex.toNat = 4 then finishCrc s else s)

end Sys2Proof.Machine
end

