-- ==== Sys2Proof/Machine/Command.lean ====
section
/-! DEFINITION. The host commands STEP, ACQUIRE and RESET, and the read outcomes RD_BYTE, RD_TIMEOUT and RD_ERROR
(R100, R170 to R183). -/

namespace Sys2Proof.Machine

/-- The meaning of a byte operation. -/
def runByteOp (op : ByteOp) (s : State) : Result :=
  match op with
  | .sync c => execSync c s
  | .cver c => execCver c s
  | .pass => execPass s
  | .acc16 d => execAcc16 d s
  | .acc32 d => execAcc32 d s
  | .acclen => execAcclen s
  | .skip => execSkip s
  | .payf n => execPayf n s
  | .payv => execPayv s
  | .tsum => execTsum s
  | .tcrc => execTcrc s

/-- `STEP(b)` (R100): clear `ready` and `event`, select the byte operation, perform it on `b`. -/
def stepByte (b : Byte) (s : State) : Result :=
  let s := { s.clearFlags with byteIn := some b }
  match s.selectOp with
  | .ok op => runByteOp op s
  | .error r => .refused r

/-- STEP (R100); one command at a time (R244). -/
def execStep (b : Byte) (s : State) : Result :=
  if s.busy then .refused .overlap else stepByte b s

/-- RESET (R170); none is defined during an ACQUIRE. -/
def execReset (s : State) : Result :=
  if s.busy then .refused .overlap else .next s.resetRegisters

/-- One iteration of ACQUIRE's loop on a read answer (R174, R207): the attempt is counted, then the answer's case,
then the ready test, then the budget test. -/
def readAttempt (a : ReadAnswer) (s : State) : Result :=
  if s.byteIn.isSome then .refused .overlap
  else
    match s.budget with
    | none => .refused .noReadPending
    | some n =>
      let s := { s with attempts := s.attempts + 1#16 }
      match a with
      | .error => .next (s.endAcquire .transportError)
      | .timeout =>
        .next (if s.cfg.timeoutFatal then s.endAcquire .transportError else s.testBudget n)
      | .byte b =>
        andThen (stepByte b s) fun s =>
          .next (if s.ready then s.endAcquire .frame else s.testBudget n)

/-- RD_BYTE (R175). -/
def execRdByte (b : Byte) (s : State) : Result := readAttempt (.byte b) s

/-- RD_TIMEOUT (R177). -/
def execRdTimeout (s : State) : Result := readAttempt .timeout s

/-- RD_ERROR (R178). -/
def execRdError (s : State) : Result := readAttempt .error s

/-- ACQUIRE's loop over the answers on hand: it ends with the command, or waits in `ReadByte()` when no answer is left (R174). -/
def acquireLoop : List RdWord → State → Result
  | [], s => .next { s with source := [] }
  | w :: ws, s =>
    if s.budget.isNone then .next { s with source := w :: ws }
    else
      match decodeAnswer w with
      | .error why => .refused (.illegalWord why)
      | .ok a => andThen (readAttempt a { s with source := ws }) fun s => acquireLoop ws s

/-- ACQUIRE (R174): starts with nothing attempted and runs its loop over the answers on hand. -/
def execAcquire (n : Half) (s : State) : Result :=
  if s.busy then .refused .overlap
  else acquireLoop s.source ((s.beginAcquire n).testBudget n)

end Sys2Proof.Machine
end

