-- ==== Sys2Proof/Machine/Dispatch.lean ====
section
/-! DEFINITION. One arm per instruction: its mnemonic's meaning. -/

namespace Sys2Proof.Machine

def exec (i : Instr) (s : State) : Host.Outcome State Fault Refusal :=
  match i with
  | .sync c => Sys2Proof.Machine.execSync c s
  | .cver c => Sys2Proof.Machine.execCver c s
  | .pass => Sys2Proof.Machine.execPass s
  | .acc16 d => Sys2Proof.Machine.execAcc16 d s
  | .acc32 d => Sys2Proof.Machine.execAcc32 d s
  | .acclen => Sys2Proof.Machine.execAcclen s
  | .skip => Sys2Proof.Machine.execSkip s
  | .payf n => Sys2Proof.Machine.execPayf n s
  | .payv => Sys2Proof.Machine.execPayv s
  | .tsum => Sys2Proof.Machine.execTsum s
  | .tcrc => Sys2Proof.Machine.execTcrc s
  | .step b => Sys2Proof.Machine.execStep b s
  | .acquire n => Sys2Proof.Machine.execAcquire n s
  | .reset => Sys2Proof.Machine.execReset s
  | .rdByte b => Sys2Proof.Machine.execRdByte b s
  | .rdTimeout => Sys2Proof.Machine.execRdTimeout s
  | .rdError => Sys2Proof.Machine.execRdError s

end Sys2Proof.Machine
end

