-- ==== Sys2Proof/Machine/Fetch.lean ====
section
/-! DEFINITION. Which word the machine takes next: a byte operation that is due, a read outcome an ACQUIRE waits for, or
the host's next command. -/

namespace Sys2Proof.Machine

/-- What the machine finds to do. -/
inductive Fetch where
  /-- Run an instruction at a state from which its word has been taken. -/
  | run (i : Instr) (s : State)
  /-- Nothing to run: no command waits, or the word is "no command". -/
  | idle (s : State)
  /-- The word has no operation. -/
  | stop (r : Refusal)

/-- The byte operation due for the accepted byte (R85, R100). -/
def fetchByteOp (s : State) : Fetch :=
  match s.selectOp with
  | .ok op => .run op.toInstr s
  | .error r => .stop r

/-- ByteSource's next answer: the first on hand, else a free one (R7, R172). -/
def State.takeAnswer (s : State) : RdWord × State :=
  match s.source with
  | w :: ws => (w, { s with source := ws })
  | [] =>
    ((Config.sourceAnswer Config.timeoutMs s.freeReads).word, { s with freeReads := s.freeReads + 1 })

/-- The read outcome an ACQUIRE in progress waits for (R174). -/
def fetchAnswer (s : State) : Fetch :=
  match decode (.outcome s.takeAnswer.1) with
  | .ok i => .run i s.takeAnswer.2
  | .error why => .stop (.illegalWord why)

/-- The host's next command (R88); a word of `cmd` 00 is taken and is no command. -/
def fetchCommand (s : State) : Fetch :=
  match s.commands with
  | [] => .idle s
  | w :: ws =>
    match decode (.command w) with
    | .ok i => .run i { s with commands := ws }
    | .error .noCommand => .idle { s with commands := ws }
    | .error why => .stop (.illegalWord why)

/-- The next thing to do: a due byte operation first, then a waiting ACQUIRE's read outcome, then the next command. -/
def fetch (s : State) : Fetch :=
  if s.byteIn.isSome then fetchByteOp s
  else if s.budget.isSome then fetchAnswer s
  else fetchCommand s

/-- Puts a descriptor word where the cursor selects the next byte operation. -/
def Config.placeEntry (c : Config) (st : Stage) (i : Nat) (w : DescWord) : Config :=
  match st with
  | .sync => { c with entries := setEntry c.entries i w }
  | .header => { c with entries := setEntry c.entries i w }
  | .payload => { c with payload := w }
  | .trailer => { c with trailer := w }

/-- The state with an interface word where `fetch` takes it next, and the machine waiting on that interface. -/
def State.placeWord (s : State) : IfaceWord → State
  | .descriptor w =>
    { s with
      byteIn := some (s.byteIn.getD 0#8)
      cfg := Config.placeEntry s.cfg s.stage s.byteIndex.toNat w }
  | .command w => { s with byteIn := none, budget := none, commands := w :: s.commands }
  | .outcome w =>
    { s with byteIn := none, budget := some (s.budget.getD s.cfg.nBudget), source := w :: s.source }

end Sys2Proof.Machine
end

