-- ==== Sys2Proof/Machine/Step.lean ====
section
/-! DEFINITION. The machine's step: fetch, then the fetched instruction's meaning. -/

namespace Sys2Proof.Machine

/-- One step: the instruction `fetch` finds is run; with nothing to run the block keeps its state (R220). -/
def step (s : State) : Host.Outcome State Fault Refusal :=
  match fetch s with
  | .run i t => exec i t
  | .idle t => .next t
  | .stop r => .refused r

/-- The state with a table row's bits stored where `step` takes its next word. -/
def State.withFetchWord (s : State) (nbits w : Nat) : State :=
  match tableWord nbits w with
  | some x => s.placeWord x
  | none => s

end Sys2Proof.Machine
end

