-- ==== Sys2Proof/Safety.lean ====
section
/-! DEFINITION. The terms of the claims: the invariant of a legal instance (R27 and what it rests on), the parts of the
state an operation keeps, feeding a byte stream, the transition table of R105 and the images of whole frames. -/

namespace Sys2Proof.Machine

/-! ### The invariant -/

/-- How many bytes an entry consumes before `byteIndex` advances (R81). -/
def opWidth : ByteOp → Nat
  | .acc16 _ => 2
  | .acc32 _ => 4
  | .acclen => 2
  | .skip => 2
  | .tcrc => 4
  | .sync _ => 1
  | .cver _ => 1
  | .pass => 1
  | .payf _ => 1
  | .payv => 1
  | .tsum => 1

/-- `L`, the payload length: 30 for IMU, `messageLength` for GPS (R27, R105). -/
def State.payloadLen (s : State) : Nat :=
  match s.cfg.proto with
  | .imu => s.cfg.payFixed
  | .gps => s.messageLength.toNat

/-- The subindex is below the width of the entry at `byteIndex`, which exists (R27 (b)). -/
def State.inEntry (s : State) : Bool :=
  match s.selectOp with
  | .ok op => s.subIndex.toNat < opWidth op
  | .error _ => false

/-- The cursor is one R27 allows, parts (a) to (d). -/
def State.cursorOk (s : State) : Bool :=
  match s.stage with
  | .sync => s.byteIndex.toNat < s.cfg.syncLen && s.subIndex == 0#3
  | .header => s.cfg.syncLen ≤ s.byteIndex.toNat && s.byteIndex.toNat < s.cfg.hdrLen && s.inEntry
  | .payload =>
    s.cfg.hdrLen ≤ s.byteIndex.toNat && s.byteIndex.toNat < s.cfg.hdrLen + s.payloadLen && s.subIndex == 0#3
  | .trailer =>
    s.byteIndex.toNat == s.cfg.hdrLen + s.payloadLen && s.subIndex.toNat < s.cfg.trlLen

/-- `messageLength` is that of the frame in progress: past GPS offset 9 and in the later stages. -/
def State.lengthKnown (s : State) : Bool :=
  match s.stage with
  | .sync => false
  | .header => 10 ≤ s.byteIndex.toNat
  | .payload => true
  | .trailer => true

/-- The admitted payload lengths of a GPS frame (R115, R117). -/
def State.lengthAdmitted (s : State) : Bool :=
  1 ≤ s.messageLength.toNat && s.messageLength.toNat ≤ s.cfg.maxLen

/-- The invariant of a legal instance: what R27 states, and the facts of the model that make it inductive. -/
structure State.Inv (s : State) : Prop where
  /-- The parameters are those of R8 and the descriptor that of R86 or R87. -/
  legal : s.cfg.Legal
  /-- The buffer is in canonical form. -/
  bufWf : s.buf.wf = true
  /-- Every listed offset is below `CAP` (R21). -/
  bufRange : ∀ c ∈ s.buf, c.1 < s.cfg.cap
  /-- R27 (a) to (d). -/
  cursor : s.cursorOk = true
  /-- R27 (c): a GPS payload length is admitted once it is known. -/
  lengthOk : s.cfg.proto = .gps → s.lengthKnown = true → s.lengthAdmitted = true
  /-- `length` never exceeds the capacity (R22). -/
  lengthCap : s.length.toNat ≤ s.cfg.cap
  /-- An accepted byte waits for its operation only inside a STEP: flags cleared, no ACQUIRE beside it (R100, R244). -/
  latch : s.byteIn.isSome = true → s.ready = false ∧ s.event = .none ∧ s.budget = none
  /-- An ACQUIRE in progress has attempts left and no frame ready (R174). -/
  acquiring : ∀ n, s.budget = some n → s.attempts.toNat < n.toNat ∧ s.ready = false
  /-- A reported frame leaves the cursor at (Sync, 0, 0) until the next STEP (R155). -/
  readyAtRest : s.ready = true → s.stage = .sync ∧ s.byteIndex = 0#9 ∧ s.subIndex = 0#3

/-- What `ready` reports: for IMU an accepted 38-byte frame, for GPS `32 + messageLength` bytes of 33 to 500 (R9, R22, R30). -/
def State.Reports (s : State) : Prop :=
  s.ready = true →
    match s.cfg.proto with
    | .imu => s.checkOk = true ∧ s.length.toNat = 38
    | .gps => s.length.toNat = 32 + s.messageLength.toNat ∧ 33 ≤ s.length.toNat ∧ s.length.toNat ≤ 500

/-- The header of the frame in progress, or of the reported frame, has reached or passed offset `k` (R40). -/
def State.pastOffset (s : State) (k : Nat) : Prop :=
  (s.stage = .header ∧ k ≤ s.byteIndex.toNat) ∨ s.stage = .payload ∨ s.stage = .trailer ∨ s.ready = true

/-- Each GPS field register equals the little-endian merge of its buffer bytes once its field is complete (R52, R66). -/
def State.FieldsMatch (s : State) : Prop :=
  s.cfg.proto = .gps →
    (s.pastOffset 6 → s.messageId.toNat = le (s.buf.slice 4 2)) ∧
    (s.pastOffset 10 → s.messageLength.toNat = le (s.buf.slice 8 2)) ∧
    (s.pastOffset 12 → s.sequenceNumber.toNat = le (s.buf.slice 10 2)) ∧
    (s.pastOffset 16 → s.timeWeek.toNat = le (s.buf.slice 14 2)) ∧
    (s.pastOffset 20 → s.timeMs.toNat = le (s.buf.slice 16 4)) ∧
    (s.pastOffset 24 → s.status.toNat = le (s.buf.slice 20 4)) ∧
    (s.pastOffset 28 → s.swVersion.toNat = le (s.buf.slice 26 2))

/-- The skipped GPS cells hold `BUF_RESET` (R57). -/
def State.SkippedCellsReset (s : State) : Prop :=
  s.cfg.proto = .gps → s.buf.read 24 = Config.bufReset ∧ s.buf.read 25 = Config.bufReset

/-- An IMU instance's field registers, which the hardware does not have (R10), hold 0. -/
def State.ImuFieldsZero (s : State) : Prop :=
  s.cfg.proto = .imu → ∀ d, s.readField d = 0

/-! ### Frames: the parts of the state an operation keeps -/

/-- The cursor as a triple (R16). -/
def State.cur (s : State) : Stage × Nat × Nat := (s.stage, s.byteIndex.toNat, s.subIndex.toNat)

/-- Every byte of the buffer is as before. -/
def SameBuf (s t : State) : Prop := ∀ a, t.buf.read a = s.buf.read a

/-- Every byte of the buffer is as before, but for offset `x`, which holds `b`. -/
def StoredAt (x : Nat) (b : Byte) (s t : State) : Prop :=
  ∀ a, t.buf.read a = if a = x then b else s.buf.read a

/-- What a byte operation on byte `b` stores, and that it stores nothing else (R53). -/
def StoresOnly (op : ByteOp) (b : Byte) (s t : State) : Prop :=
  match op with
  | .sync c => (b = c → StoredAt s.byteIndex.toNat b s t) ∧ (b ≠ c → SameBuf s t)
  | .cver c => (b = c → StoredAt s.byteIndex.toNat b s t) ∧ (b ≠ c → SameBuf s t)
  | .pass => StoredAt s.byteIndex.toNat b s t
  | .acc16 _ => StoredAt (s.byteIndex.toNat + s.subIndex.toNat) b s t
  | .acc32 _ => StoredAt (s.byteIndex.toNat + s.subIndex.toNat) b s t
  | .acclen => StoredAt (s.byteIndex.toNat + s.subIndex.toNat) b s t
  | .skip => SameBuf s t
  | .payf _ => StoredAt s.byteIndex.toNat b s t
  | .payv => StoredAt s.byteIndex.toNat b s t
  | .tsum => StoredAt s.byteIndex.toNat b s t
  | .tcrc => StoredAt (s.byteIndex.toNat + s.subIndex.toNat) b s t

/-- The seven field registers are as before. -/
def SameFields (s t : State) : Prop := ∀ d, t.readField d = s.readField d

/-- `length` and the results of the last completion are as before. -/
def SameReport (s t : State) : Prop :=
  t.length = s.length ∧ t.checkOk = s.checkOk ∧ t.rxCheck = s.rxCheck ∧ t.calcCheck = s.calcCheck

/-- The acquisition registers and the ACQUIRE in progress are as before. -/
def SameAcquisition (s t : State) : Prop :=
  t.attempts = s.attempts ∧ t.acqResult = s.acqResult ∧ t.budget = s.budget

/-- The parameters, and the words waiting on the interfaces, are as before. -/
def SameOutside (s t : State) : Prop :=
  t.cfg = s.cfg ∧ t.commands = s.commands ∧ t.source = s.source ∧ t.freeReads = s.freeReads

/-- A byte operation took its byte and kept everything but cursor, buffer, fields, report, `ready` and `event`. -/
def ByteTaken (s t : State) : Prop := t.byteIn = none ∧ SameAcquisition s t ∧ SameOutside s t

/-! ### Streams -/

/-- `FEED` (R14, R89): STEP for each byte in order. -/
def feed : List Byte → State → Result
  | [], s => .next s
  | b :: bs, s => andThen (exec (.step b) s) (feed bs)

/-- The bytes among a list of read answers, in order (R175, R177, R178). -/
def answeredBytes : List ReadAnswer → List Byte
  | [] => []
  | .byte b :: as => b :: answeredBytes as
  | .timeout :: as => answeredBytes as
  | .error :: as => answeredBytes as

/-- A read answer that ends the call without a frame (R177, R178). -/
def endsCall (c : Config) : ReadAnswer → Bool
  | .byte _ => false
  | .timeout => c.timeoutFatal
  | .error => true

/-! ### The transition table of R105 -/

/-- The resync cursor. -/
def resync : Stage × Nat × Nat := (.sync, 0, 0)

/-- The cursor after a header entry is complete: the next offset, or the Payload stage at `HDRLEN` (R105, R117). -/
def headerNext (s : State) (next : Nat) : Stage × Nat × Nat :=
  if next = s.cfg.hdrLen then (.payload, next, 0) else (.header, next, 0)

/-- A header field of `w` bytes without validation (R105). -/
def fieldRow (s : State) (w : Nat) : (Stage × Nat × Nat) × Bool × Event :=
  if s.subIndex.toNat + 1 < w then ((.header, s.byteIndex.toNat, s.subIndex.toNat + 1), false, .none)
  else (headerNext s (s.byteIndex.toNat + w), false, .none)

/-- Header rows of R105, by the entry at `byteIndex`. -/
def headerRow (s : State) (b : Byte) (op : ByteOp) : (Stage × Nat × Nat) × Bool × Event :=
  match op with
  | .cver c =>
    if b = c then (headerNext s (s.byteIndex.toNat + 1), false, .none) else (resync, false, .headerFieldInvalid)
  | .pass => (headerNext s (s.byteIndex.toNat + 1), false, .none)
  | .acc16 _ => fieldRow s 2
  | .acc32 _ => fieldRow s 4
  | .skip => fieldRow s 2
  | .acclen =>
    if s.subIndex.toNat = 0 then ((.header, s.byteIndex.toNat, 1), false, .none)
    else if (s.buf.read 8).toNat + 256 * b.toNat = 0 ∨ 468 < (s.buf.read 8).toNat + 256 * b.toNat then
      (resync, false, .headerFieldInvalid)
    else ((.header, s.byteIndex.toNat + 2, 0), false, .none)
  | .sync _ => (s.cur, false, .none)
  | .payf _ => (s.cur, false, .none)
  | .payv => (s.cur, false, .none)
  | .tsum => (s.cur, false, .none)
  | .tcrc => (s.cur, false, .none)

/-- The row of R105 that a STEP of byte `b` takes: the cursor, `ready` and `event` after it. -/
def transition (s : State) (b : Byte) : (Stage × Nat × Nat) × Bool × Event :=
  match s.stage with
  | .sync =>
    if s.cfg.syncSeq[s.byteIndex.toNat]? = some b then
      if s.byteIndex.toNat + 1 < s.cfg.syncLen then ((.sync, s.byteIndex.toNat + 1, 0), false, .none)
      else ((.header, s.cfg.syncLen, 0), false, .none)
    else (resync, false, .syncMismatch)
  | .header =>
    match s.selectOp with
    | .ok op => headerRow s b op
    | .error _ => (s.cur, false, .none)
  | .payload =>
    if s.byteIndex.toNat + 1 < s.cfg.hdrLen + s.payloadLen then ((.payload, s.byteIndex.toNat + 1, 0), false, .none)
    else ((.trailer, s.cfg.hdrLen + s.payloadLen, 0), false, .none)
  | .trailer =>
    match s.cfg.proto with
    | .imu =>
      if b = sum8 (s.buf.slice 0 37) then (resync, true, .none) else (resync, false, .checksumMismatch)
    | .gps =>
      if s.subIndex.toNat < 3 then ((.trailer, s.byteIndex.toNat, s.subIndex.toNat + 1), false, .none)
      else if bswap32 (crc32 s.cfg (s.buf.slice 0 s.byteIndex.toNat)) =
          BitVec.ofNat 32 (le (s.buf.slice s.byteIndex.toNat 3 ++ [b])) then (resync, true, .none)
      else (resync, true, .crcMismatch)

/-! ### Whole frames on the wire (R71, R73) -/

/-- Sync and constants of an IMU frame (R71, offsets 0 to 6). -/
def imuHead : List Byte := [0xFF#8, 0xFF#8, 0xFF#8, 0xFF#8, 0x26#8, 0xFF#8, 0x14#8]

/-- The bytes of a GPS frame before its payload that the block interprets or copies (R73). -/
structure GpsHeader where
  messageId : Half
  messageType : Byte
  portAddress : Byte
  messageLength : Half
  sequenceNumber : Half
  idleTime : Byte
  timeStatus : Byte
  timeWeek : Half
  timeMs : Word
  status : Word
  reserved0 : Byte
  reserved1 : Byte
  swVersion : Half
  deriving DecidableEq, Repr

/-- A 16-bit value on the wire: the least significant byte first (R52). -/
def wire16 (v : Half) : List Byte := [v.extractLsb' 0 8, v.extractLsb' 8 8]

/-- A 32-bit value on the wire: the least significant byte first (R52). -/
def wire32 (v : Word) : List Byte :=
  [v.extractLsb' 0 8, v.extractLsb' 8 8, v.extractLsb' 16 8, v.extractLsb' 24 8]

/-- Offsets 0 to 27 of a GPS frame with the given two bytes at offsets 24 and 25 (R73). -/
def GpsHeader.bytes (h : GpsHeader) (r0 r1 : Byte) : List Byte :=
  [0xAA#8, 0x44#8, 0x12#8, 0x1C#8] ++ wire16 h.messageId ++ [h.messageType, h.portAddress] ++
    wire16 h.messageLength ++ wire16 h.sequenceNumber ++ [h.idleTime, h.timeStatus] ++
    wire16 h.timeWeek ++ wire32 h.timeMs ++ wire32 h.status ++ [r0, r1] ++ wire16 h.swVersion

/-- Offsets 0 to 27 as they arrive. -/
def GpsHeader.wire (h : GpsHeader) : List Byte := h.bytes h.reserved0 h.reserved1

/-- Offsets 0 to 27 as the buffer holds them: the reserved bytes are not stored (R57). -/
def GpsHeader.stored (h : GpsHeader) : List Byte := h.bytes Config.bufReset Config.bufReset

/-- A value's bytes, the most significant first. -/
def bigEndian32 (v : Word) : List Byte :=
  [v.extractLsb' 24 8, v.extractLsb' 16 8, v.extractLsb' 8 8, v.extractLsb' 0 8]

end Sys2Proof.Machine
end

