-- ==== Sys2Proof/Certificates/Slice0/Obligations.lean ====
section
/-! DEFINITION. The statements for the provers. Each docstring names the rule of spec/ it formalises; a statement that
rests on one of the spec's own decisions (D<n> of 92_eei_decisions.md) or on a choice of the model says so. -/

open Sys2Proof Sys2Proof.Machine

/-! ### Encoding -/

/-- Every well-formed instruction is what its encoding decodes to (R81 to R83, R88). -/
def Obligations.DecodeOfEncodeIsTheInstruction : Prop :=
  ∀ i : Instr, i.wf = true → decode (encode i) = .ok i

/-- Every word the decoder accepts is the encoding of the well-formed instruction it stands for: no accepted word has a
second spelling, and no reserved bit is ignored (R83, R88). That an ACC16 or ACC32 word naming a register of another
width is refused is read from R75 (DEDUCED, log entry 14), that stray bits of a command or read-outcome word are
refused is read from R88's patterns (DEDUCED, log entry 15). -/
def Obligations.AcceptedWordIsItsInstructionsEncoding : Prop :=
  ∀ (x : IfaceWord) (i : Instr), decode x = .ok i → i.wf = true ∧ encode i = x

/-- Descriptor words of kind 10 to 15, of a width other than 1, 2 and 4, with a non-zero reserved field or with a reserved
`dest` code have no operation (R82, R83; decision D12), and neither have the read outcome `rsp` = 11 and the
command `cmd` = 00 (R88). -/
def Obligations.ReservedWordsAreRejected : Prop :=
  (∀ w : DescWord,
    (10 ≤ (descKind w).toNat ∨ (descWidth w ≠ 1#3 ∧ descWidth w ≠ 2#3 ∧ descWidth w ≠ 4#3) ∨
        descReserved w ≠ 0#4 ∨ 8 ≤ (descDest w).toNat) →
      ∀ i, decode (.descriptor w) ≠ .ok i) ∧
    (∀ w : CmdWord, w.extractLsb' 16 2 = 0#2 → ∀ i, decode (.command w) ≠ .ok i) ∧
    (∀ w : RdWord, w.extractLsb' 8 2 = 3#2 → ∀ i, decode (.outcome w) ≠ .ok i)

/-- Words written out from the encodings of R83 and R88 decode to the operations they stand for. -/
def Obligations.WrittenOutWordsDecode : Prop :=
  decode (.descriptor 0b000000100000000010101010#24) = .ok (.sync 0xAA#8) ∧
    decode (.descriptor 0b000100100000000000011100#24) = .ok (.cver 0x1C#8) ∧
    decode (.descriptor 0b001101000100000000000000#24) = .ok (.acc16 .timeWeek) ∧
    decode (.descriptor 0b001110000110000000000000#24) = .ok (.acc32 .status) ∧
    decode (.descriptor 0b010001010010000000000000#24) = .ok .acclen ∧
    decode (.descriptor 0b011000100000000000011110#24) = .ok (.payf 30#8) ∧
    decode (.descriptor 0b100110000000000000000000#24) = .ok .tcrc ∧
    decode (.command 0b010000000010101010#18) = .ok (.step 0xAA#8) ∧
    decode (.command 0b100000001111101000#18) = .ok (.acquire 1000#16) ∧
    decode (.outcome 0b0000011100#10) = .ok (.rdByte 0x1C#8)

/-! ### Fetch -/

/-- A step runs the instruction it decodes: a byte operation that is due for the accepted byte, else the read outcome an
ACQUIRE in progress waits for (the first on hand, or a free answer of ByteSource where none is), else the host's next
command, each taken from its list. With no command waiting, or at a `cmd` = 00 word, the block keeps its state.
The order of the three and the lists are the model's (log entries 5 to 8). -/
def Obligations.StepRunsTheDecodedInstruction : Prop :=
  (∀ (s : State) (w : DescWord) (i : Instr),
    s.byteIn.isSome = true → s.entryWord = some w → decode (.descriptor w) = .ok i → step s = exec i s) ∧
  (∀ (s : State) (w : RdWord) (ws : List RdWord) (i : Instr),
    s.byteIn = none → s.budget.isSome = true → s.source = w :: ws → decode (.outcome w) = .ok i →
      step s = exec i { s with source := ws }) ∧
  (∀ s : State, s.byteIn = none → s.budget.isSome = true → s.source = [] →
    step s = exec (Config.sourceAnswer Config.timeoutMs s.freeReads).toInstr { s with freeReads := s.freeReads + 1 }) ∧
  (∀ (s : State) (w : CmdWord) (ws : List CmdWord) (i : Instr),
    s.busy = false → s.commands = w :: ws → decode (.command w) = .ok i →
      step s = exec i { s with commands := ws }) ∧
  (∀ (s : State) (w : CmdWord) (ws : List CmdWord),
    s.busy = false → s.commands = w :: ws → w.extractLsb' 16 2 = 0#2 → step s = .next { s with commands := ws }) ∧
  (∀ s : State, s.busy = false → s.commands = [] → step s = .next s)

/-- The IMU descriptor program (R86): what each cursor position selects in an IMU instance. -/
def Obligations.ImuDescriptorProgram : Prop :=
  ∀ s : State, s.cfg.Legal → s.cfg.proto = .imu →
    (s.stage = .sync → s.byteIndex.toNat < 4 → s.selectOp = .ok (.sync 0xFF#8)) ∧
    (s.stage = .header → s.byteIndex.toNat = 4 → s.selectOp = .ok (.cver 0x26#8)) ∧
    (s.stage = .header → s.byteIndex.toNat = 5 → s.selectOp = .ok (.cver 0xFF#8)) ∧
    (s.stage = .header → s.byteIndex.toNat = 6 → s.selectOp = .ok (.cver 0x14#8)) ∧
    (s.stage = .payload → s.selectOp = .ok (.payf 30#8)) ∧
    (s.stage = .trailer → s.selectOp = .ok .tsum)

/-- The GPS descriptor program (R87): what each cursor position selects in a GPS instance. -/
def Obligations.GpsDescriptorProgram : Prop :=
  ∀ s : State, s.cfg.Legal → s.cfg.proto = .gps →
    (s.stage = .sync → s.byteIndex.toNat = 0 → s.selectOp = .ok (.sync 0xAA#8)) ∧
    (s.stage = .sync → s.byteIndex.toNat = 1 → s.selectOp = .ok (.sync 0x44#8)) ∧
    (s.stage = .sync → s.byteIndex.toNat = 2 → s.selectOp = .ok (.sync 0x12#8)) ∧
    (s.stage = .header →
      (s.byteIndex.toNat = 3 → s.selectOp = .ok (.cver 0x1C#8)) ∧
      (s.byteIndex.toNat = 4 → s.selectOp = .ok (.acc16 .messageId)) ∧
      (s.byteIndex.toNat ∈ [6, 7, 12, 13] → s.selectOp = .ok .pass) ∧
      (s.byteIndex.toNat = 8 → s.selectOp = .ok .acclen) ∧
      (s.byteIndex.toNat = 10 → s.selectOp = .ok (.acc16 .sequenceNumber)) ∧
      (s.byteIndex.toNat = 14 → s.selectOp = .ok (.acc16 .timeWeek)) ∧
      (s.byteIndex.toNat = 16 → s.selectOp = .ok (.acc32 .timeMs)) ∧
      (s.byteIndex.toNat = 20 → s.selectOp = .ok (.acc32 .status)) ∧
      (s.byteIndex.toNat = 24 → s.selectOp = .ok .skip) ∧
      (s.byteIndex.toNat = 26 → s.selectOp = .ok (.acc16 .swVersion))) ∧
    (s.stage = .payload → s.selectOp = .ok .payv) ∧
    (s.stage = .trailer → s.selectOp = .ok .tcrc)

/-! ### The byte operations: result, completion and frame -/

/-- SYNC (R101): a byte equal to the constant is stored at `byteIndex`, which advances, into the Header stage at `SYNCLEN`;
any other is discarded with a resync and SyncMismatch. `SYNCSEQ` is `FF FF FF FF` (IMU) or
`AA 44 12` (GPS, R8), and the constant `DESC` gives is `SYNCSEQ[byteIndex]`. -/
def Obligations.SyncStoresOrResyncs : Prop :=
  ∀ (c b : Byte) (s : State), s.cfg.Legal → s.byteIn = some b → s.stage = .sync → s.byteIndex.toNat < s.cfg.syncLen →
    s.cfg.syncSeq = (if s.cfg.proto = .imu then [0xFF#8, 0xFF#8, 0xFF#8, 0xFF#8] else [0xAA#8, 0x44#8, 0x12#8]) ∧
    (∀ k, s.cfg.syncSeq[s.byteIndex.toNat]? = some k → s.selectOp = .ok (.sync k)) ∧
    ∃ t, exec (.sync c) s = .next t ∧ ByteTaken s t ∧ SameFields s t ∧ SameReport s t ∧ t.ready = s.ready ∧
      (b = c → StoredAt s.byteIndex.toNat b s t ∧ t.event = s.event ∧
        t.cur = (if s.byteIndex.toNat + 1 = s.cfg.syncLen then .header else .sync,
          s.byteIndex.toNat + 1, s.subIndex.toNat)) ∧
      (b ≠ c → SameBuf s t ∧ t.event = .syncMismatch ∧ t.cur = resync)

/-- CVER (R111; that it stores on a match is decision D19, that the IMU mismatch resyncs is D6): a byte equal to the constant is
stored and the entry is finished; any other is discarded with a resync and HeaderFieldInvalid. -/
def Obligations.CverStoresOrResyncs : Prop :=
  ∀ (c b : Byte) (s : State), s.cfg.Legal → s.byteIn = some b → s.stage = .header → s.byteIndex.toNat < s.cfg.hdrLen →
    ∃ t, exec (.cver c) s = .next t ∧ ByteTaken s t ∧ SameFields s t ∧ SameReport s t ∧ t.ready = s.ready ∧
      (b = c → StoredAt s.byteIndex.toNat b s t ∧ t.event = s.event ∧
        t.cur = headerNext s (s.byteIndex.toNat + 1)) ∧
      (b ≠ c → SameBuf s t ∧ t.event = .headerFieldInvalid ∧ t.cur = resync)

/-- PASS (R112): the byte is copied verbatim and the index advances by 1. A GPS instance has it at offsets 6, 7, 12 and 13, an
IMU instance nowhere. -/
def Obligations.PassCopiesTheByte : Prop :=
  ∀ (b : Byte) (s : State), s.cfg.Legal → s.byteIn = some b → s.stage = .header → s.byteIndex.toNat < s.cfg.hdrLen →
    (s.cfg.proto = .gps → s.byteIndex.toNat ∈ [6, 7, 12, 13] → s.selectOp = .ok .pass) ∧
    (s.cfg.proto = .imu → s.selectOp ≠ .ok .pass) ∧
    ∃ t, exec .pass s = .next t ∧ ByteTaken s t ∧ SameFields s t ∧ SameReport s t ∧
      t.ready = s.ready ∧ t.event = s.event ∧
      StoredAt s.byteIndex.toNat b s t ∧ t.cur = headerNext s (s.byteIndex.toNat + 1)

/-- ACC16 (R113): the first byte is stored and counted; the second is stored and completes the register with the
little-endian value, every 16-bit value accepted. A GPS instance has it at offsets 4, 10, 14 and 26. That `d` none writes
no register is the model's choice and no rule of the spec (DEDUCED, log entry 14). -/
def Obligations.Acc16AssemblesTheField : Prop :=
  ∀ (d : Dest) (b : Byte) (s : State), (Instr.acc16 d).wf = true → s.cfg.Legal → s.byteIn = some b →
    s.stage = .header → s.byteIndex.toNat + 2 ≤ s.cfg.hdrLen → s.subIndex.toNat < 2 →
    (s.cfg.proto = .gps →
      (s.byteIndex.toNat = 4 → s.selectOp = .ok (.acc16 .messageId)) ∧
      (s.byteIndex.toNat = 10 → s.selectOp = .ok (.acc16 .sequenceNumber)) ∧
      (s.byteIndex.toNat = 14 → s.selectOp = .ok (.acc16 .timeWeek)) ∧
      (s.byteIndex.toNat = 26 → s.selectOp = .ok (.acc16 .swVersion))) ∧
    ∃ t, exec (.acc16 d) s = .next t ∧ ByteTaken s t ∧ SameReport s t ∧ t.ready = s.ready ∧ t.event = s.event ∧
      StoredAt (s.byteIndex.toNat + s.subIndex.toNat) b s t ∧
      (s.subIndex.toNat = 0 → SameFields s t ∧ t.cur = (.header, s.byteIndex.toNat, 1)) ∧
      (s.subIndex.toNat = 1 →
        (d ≠ .none → t.readField d = (s.buf.read s.byteIndex.toNat).toNat + 256 * b.toNat) ∧
        (∀ d', d' ≠ d → t.readField d' = s.readField d') ∧
        t.cur = headerNext s (s.byteIndex.toNat + 2))

/-- ACC32 (R114): three bytes are stored and counted; the fourth completes the register with the little-endian value,
every 32-bit value accepted. A GPS instance has it at offsets 16 and 20. That `d` none
writes no register is the model's choice and no rule of the spec (DEDUCED, log entry 14). -/
def Obligations.Acc32AssemblesTheField : Prop :=
  ∀ (d : Dest) (b : Byte) (s : State), (Instr.acc32 d).wf = true → s.cfg.Legal → s.byteIn = some b →
    s.stage = .header → s.byteIndex.toNat + 4 ≤ s.cfg.hdrLen → s.subIndex.toNat < 4 →
    (s.cfg.proto = .gps →
      (s.byteIndex.toNat = 16 → s.selectOp = .ok (.acc32 .timeMs)) ∧
      (s.byteIndex.toNat = 20 → s.selectOp = .ok (.acc32 .status))) ∧
    ∃ t, exec (.acc32 d) s = .next t ∧ ByteTaken s t ∧ SameReport s t ∧ t.ready = s.ready ∧ t.event = s.event ∧
      StoredAt (s.byteIndex.toNat + s.subIndex.toNat) b s t ∧
      (s.subIndex.toNat < 3 → SameFields s t ∧ t.cur = (.header, s.byteIndex.toNat, s.subIndex.toNat + 1)) ∧
      (s.subIndex.toNat = 3 →
        (d ≠ .none → t.readField d =
          (s.buf.read s.byteIndex.toNat).toNat + 256 * (s.buf.read (s.byteIndex.toNat + 1)).toNat +
            65536 * (s.buf.read (s.byteIndex.toNat + 2)).toNat + 16777216 * b.toNat) ∧
        (∀ d', d' ≠ d → t.readField d' = s.readField d') ∧
        t.cur = headerNext s (s.byteIndex.toNat + 4))

/-- ACCLEN (R115; the bound 468 is decision D9): the second byte completes `messageLength`, which is then validated: 0 or a
value above 468 resyncs with HeaderFieldInvalid, the register keeping the rejected value. -/
def Obligations.AcclenAssemblesAndValidates : Prop :=
  ∀ (b : Byte) (s : State), s.cfg.Legal → s.cfg.proto = .gps → s.byteIn = some b →
    s.stage = .header → s.byteIndex.toNat = 8 → s.subIndex.toNat < 2 →
    ∃ t, exec .acclen s = .next t ∧ ByteTaken s t ∧ SameReport s t ∧ t.ready = s.ready ∧
      StoredAt (8 + s.subIndex.toNat) b s t ∧
      (∀ d, d ≠ .messageLength → t.readField d = s.readField d) ∧
      (s.subIndex.toNat = 0 →
        t.messageLength = s.messageLength ∧ t.event = s.event ∧ t.cur = (.header, 8, 1)) ∧
      (s.subIndex.toNat = 1 →
        t.messageLength.toNat = (s.buf.read 8).toNat + 256 * b.toNat ∧
        (1 ≤ t.messageLength.toNat ∧ t.messageLength.toNat ≤ 468 →
          t.event = s.event ∧ t.cur = (.header, 10, 0)) ∧
        (t.messageLength.toNat = 0 ∨ 468 < t.messageLength.toNat →
          t.event = .headerFieldInvalid ∧ t.cur = resync))

/-- SKIP (R116; that the cells keep their content is decision D10): the byte is counted and stored nowhere. -/
def Obligations.SkipStoresNothing : Prop :=
  ∀ (b : Byte) (s : State), s.cfg.Legal → s.byteIn = some b →
    s.stage = .header → s.byteIndex.toNat + 2 ≤ s.cfg.hdrLen → s.subIndex.toNat < 2 →
    ∃ t, exec .skip s = .next t ∧ ByteTaken s t ∧ SameFields s t ∧ SameReport s t ∧
      t.ready = s.ready ∧ t.event = s.event ∧ SameBuf s t ∧
      (s.subIndex.toNat = 0 → t.cur = (.header, s.byteIndex.toNat, 1)) ∧
      (s.subIndex.toNat = 1 → t.cur = headerNext s (s.byteIndex.toNat + 2))

/-- PAYF (R130): the byte is copied; the Trailer stage begins when `byteIndex - HDRLEN` reaches the count. In an IMU instance it is
the payload entry, its count 30. -/
def Obligations.PayfCopiesUntilItsCount : Prop :=
  ∀ (n b : Byte) (s : State), s.cfg.Legal → s.byteIn = some b → s.stage = .payload →
    s.cfg.hdrLen ≤ s.byteIndex.toNat → s.byteIndex.toNat < s.cfg.cap →
    (s.cfg.proto = .imu → s.selectOp = .ok (.payf 30#8)) ∧
    ∃ t, exec (.payf n) s = .next t ∧ ByteTaken s t ∧ SameFields s t ∧ SameReport s t ∧
      t.ready = s.ready ∧ t.event = s.event ∧ StoredAt s.byteIndex.toNat b s t ∧
      t.cur = (if s.byteIndex.toNat + 1 - s.cfg.hdrLen = n.toNat then .trailer else .payload,
        s.byteIndex.toNat + 1, s.subIndex.toNat)

/-- PAYV (R131): the byte is copied; the Trailer stage begins when the number of bytes copied equals `messageLength`. In a GPS
instance it is the payload entry. -/
def Obligations.PayvCopiesUntilMessageLength : Prop :=
  ∀ (b : Byte) (s : State), s.cfg.Legal → s.byteIn = some b → s.stage = .payload →
    s.cfg.hdrLen ≤ s.byteIndex.toNat → s.byteIndex.toNat < s.cfg.cap →
    (s.cfg.proto = .gps → s.selectOp = .ok .payv) ∧
    ∃ t, exec .payv s = .next t ∧ ByteTaken s t ∧ SameFields s t ∧ SameReport s t ∧
      t.ready = s.ready ∧ t.event = s.event ∧ StoredAt s.byteIndex.toNat b s t ∧
      t.cur = (if s.byteIndex.toNat + 1 - s.cfg.hdrLen = s.messageLength.toNat then .trailer else .payload,
        s.byteIndex.toNat + 1, s.subIndex.toNat)

/-- TSUM (R150; that the byte is stored is decision D19): the sum of offsets 0 to 36 modulo 256 is compared with the byte;
only an equal one reports the frame; the cursor resyncs in both cases. -/
def Obligations.TsumReportsOnlyAnEqualSum : Prop :=
  ∀ (b : Byte) (s : State), s.cfg.Legal → s.cfg.proto = .imu → s.byteIn = some b →
    s.stage = .trailer → s.byteIndex.toNat = 37 →
    ∃ t, exec .tsum s = .next t ∧ ByteTaken s t ∧ SameFields s t ∧ StoredAt 37 b s t ∧ t.cur = resync ∧
      t.rxCheck.toNat = b.toNat ∧
      t.calcCheck.toNat = ((List.range 37).map fun a => (s.buf.read a).toNat).sum % 256 ∧
      (t.calcCheck = t.rxCheck →
        t.checkOk = true ∧ t.ready = true ∧ t.length.toNat = 38 ∧ t.event = s.event) ∧
      (t.calcCheck ≠ t.rxCheck →
        t.checkOk = false ∧ t.ready = s.ready ∧ t.length = s.length ∧ t.event = .checksumMismatch)

/-- TCRC (R152): three trailer bytes are stored and counted; with the fourth the received value is the little-endian
merge of the four, the computed value the CRC of the buffer below the trailer, and the frame is reported whatever the
comparison of the byte-reversed CRC says. -/
def Obligations.TcrcReportsWithOrWithoutMatch : Prop :=
  ∀ (b : Byte) (s : State), s.cfg.Legal → s.cfg.proto = .gps → s.byteIn = some b →
    s.stage = .trailer → s.byteIndex.toNat = 28 + s.messageLength.toNat → s.messageLength.toNat ≤ 468 →
    s.subIndex.toNat < 4 →
    ∃ t, exec .tcrc s = .next t ∧ ByteTaken s t ∧ SameFields s t ∧
      StoredAt (s.byteIndex.toNat + s.subIndex.toNat) b s t ∧
      (s.subIndex.toNat < 3 →
        SameReport s t ∧ t.ready = s.ready ∧ t.event = s.event ∧
        t.cur = (.trailer, s.byteIndex.toNat, s.subIndex.toNat + 1)) ∧
      (s.subIndex.toNat = 3 →
        t.cur = resync ∧ t.ready = true ∧ t.length.toNat = 28 + s.messageLength.toNat + 4 ∧
        t.calcCheck = crc32 s.cfg (s.buf.slice 0 (28 + s.messageLength.toNat)) ∧
        t.rxCheck.toNat = (s.buf.read s.byteIndex.toNat).toNat +
          256 * (s.buf.read (s.byteIndex.toNat + 1)).toNat +
          65536 * (s.buf.read (s.byteIndex.toNat + 2)).toNat + 16777216 * b.toNat ∧
        (bswap32 t.calcCheck = t.rxCheck → t.checkOk = true ∧ t.event = .none) ∧
        (bswap32 t.calcCheck ≠ t.rxCheck → t.checkOk = false ∧ t.event = .crcMismatch))

/-! ### The commands and the read outcomes -/

/-- STEP (R100; that the flags are registers cleared first is decision D11): `ready` and `event` are cleared, and the byte operation the
cursor selects is performed on the byte. -/
def Obligations.StepPerformsTheSelectedOperation : Prop :=
  ∀ (b : Byte) (s : State) (op : ByteOp), s.busy = false → s.selectOp = .ok op →
    exec (.step b) s = exec op.toInstr { s with ready := false, event := .none, byteIn := some b }

/-- RESET (R170, R39; the values beyond the cursor are decision D5): every register has its reset value, every buffer byte is
`0x00`, nothing outside the instance changes. -/
def Obligations.ResetRestoresEveryRegister : Prop :=
  ∀ s : State, s.busy = false →
    ∃ t, exec .reset s = .next t ∧ t.cur = (.sync, 0, 0) ∧ (∀ a, t.buf.read a = 0x00#8) ∧ t.buf.wf = true ∧
      t.length = 0#9 ∧ (∀ d, t.readField d = 0) ∧ t.ready = false ∧ t.checkOk = false ∧ t.event.code = 0#3 ∧
      t.rxCheck = 0#32 ∧ t.calcCheck = 0#32 ∧ t.attempts = 0#16 ∧ t.acqResult.code = 3#2 ∧
      t.budget = none ∧ t.byteIn = none ∧ SameOutside s t

/-- The machine after reset is what RESET makes of it (R230): the reset state of either format meets the table of R39. -/
def Obligations.ResetStateIsWhatResetLeaves : Prop :=
  ∀ c : Config, exec .reset (State.resetOf c) = .next (State.resetOf c) ∧ State.reset = State.resetOf Config.gps ∧
    (∀ s : State, s.busy = false → s.commands = [] → s.source = [] → s.freeReads = 0 →
      exec .reset s = .next (State.resetOf s.cfg))

/-- ACQUIRE with no attempt to make (R174 (a); what it clears is decision D17): `N` = 0 ends at once with NO_FRAME, no answer read; with `N` > 0
and no answer on hand it has started and waits for a read outcome (the waiting is the model's, log entry 6). -/
def Obligations.AcquireStarts : Prop :=
  ∀ s : State, s.busy = false →
    exec (.acquire 0#16) s =
      .next { s with ready := false, event := .none, attempts := 0#16, acqResult := .noFrame } ∧
    ∀ n : Half, 0 < n.toNat → s.source = [] →
      exec (.acquire n) s =
        .next { s with ready := false, event := .none, attempts := 0#16, budget := some n }

/-- ACQUIRE's loop (R174, R175, R176, R207): with an answer on hand for every attempt, or with none after those on hand, it makes
`k` ≤ `N` attempts, feeds the decoder exactly the bytes among the first `k` answers, as FEED does (R181), takes no other
answer, and ends with FRAME at the first byte that completes a frame, with TRANSPORT_ERROR at the first answer that ends
the call, else with NO_FRAME after `N` attempts; when the answers run out first it stays in progress with budget `N`
(the staying is the model's, log entry 6). -/
def Obligations.AcquireFeedsExactlyItsAnswers : Prop :=
  ∀ (s : State) (n : Half) (answers : List ReadAnswer) (rest : List RdWord),
    s.Inv → s.busy = false → s.source = answers.map ReadAnswer.word ++ rest →
    (n.toNat ≤ answers.length ∨ rest = []) →
    ∃ (k : Nat) (u t : State),
      k ≤ n.toNat ∧ k ≤ answers.length ∧
      feed (answeredBytes (answers.take k)) { s with ready := false, event := .none } = .next u ∧
      exec (.acquire n) s = .next t ∧
      (∀ j, j + 1 < k →
        (∀ a, answers[j]? = some a → endsCall s.cfg a = false) ∧
        ∃ v, feed (answeredBytes (answers.take (j + 1))) { s with ready := false, event := .none } = .next v ∧
          v.ready = false) ∧
      ((∃ b, 1 ≤ k ∧ answers[k - 1]? = some (.byte b) ∧ u.ready = true ∧
          t = { u with attempts := BitVec.ofNat 16 k, acqResult := .frame, source := s.source.drop k }) ∨
        (∃ a, 1 ≤ k ∧ answers[k - 1]? = some a ∧ endsCall s.cfg a = true ∧ u.ready = false ∧
          t = { u with attempts := BitVec.ofNat 16 k, acqResult := .transportError, source := s.source.drop k }) ∨
        ((∀ a, 1 ≤ k → answers[k - 1]? = some a → endsCall s.cfg a = false) ∧ k = n.toNat ∧ u.ready = false ∧
          t = { u with attempts := BitVec.ofNat 16 k, acqResult := .noFrame, source := s.source.drop k }) ∨
        ((∀ a ∈ answers, endsCall s.cfg a = false) ∧ k = answers.length ∧ k < n.toNat ∧ rest = [] ∧ u.ready = false ∧
          t = { u with attempts := BitVec.ofNat 16 k, budget := some n, source := [] }))

/-- RD_BYTE (R175, R174): the attempt is counted, the byte is fed by exactly one STEP; a frame ends the ACQUIRE with FRAME, the
last attempt without one with NO_FRAME, and otherwise the ACQUIRE goes on. -/
def Obligations.ReadByteFeedsOneStep : Prop :=
  ∀ (b : Byte) (n : Half) (s : State), s.Inv → s.budget = some n →
    ∃ u, exec (.step b) { s with budget := none } = .next u ∧
      exec (.rdByte b) s = .next
        (if u.ready then { u with attempts := s.attempts + 1#16, acqResult := .frame }
        else if s.attempts.toNat + 1 = n.toNat then
          { u with attempts := s.attempts + 1#16, acqResult := .noFrame }
        else { u with attempts := s.attempts + 1#16, budget := some n })

/-- RD_TIMEOUT (R177; decision D14): the attempt is counted and no decoder state changes; with `TIMEOUT_FATAL` the ACQUIRE ends
with TRANSPORT_ERROR, else it goes on, or ends with NO_FRAME after the last attempt. -/
def Obligations.ReadTimeoutOnlyCounts : Prop :=
  ∀ (n : Half) (s : State), s.byteIn = none → s.budget = some n → s.attempts.toNat < n.toNat →
    exec .rdTimeout s = .next
      (if s.cfg.timeoutFatal then
        { s with attempts := s.attempts + 1#16, acqResult := .transportError, budget := none }
      else if s.attempts.toNat + 1 = n.toNat then
        { s with attempts := s.attempts + 1#16, acqResult := .noFrame, budget := none }
      else { s with attempts := s.attempts + 1#16 })

/-- RD_ERROR (R178; decision D15): the failed attempt is counted, the ACQUIRE ends with TRANSPORT_ERROR, no decoder state changes. -/
def Obligations.ReadErrorEndsTheCall : Prop :=
  ∀ (n : Half) (s : State), s.byteIn = none → s.budget = some n →
    exec .rdError s =
      .next { s with attempts := s.attempts + 1#16, acqResult := .transportError, budget := none }

/-- Overlapping operations have no meaning (R63, R221, R244; decision D24): while an ACQUIRE or a byte operation is in progress no
command is run, and outside an ACQUIRE no read outcome is taken (R182). -/
def Obligations.OverlapIsRefused : Prop :=
  ∀ s : State,
    (s.busy = true → (∀ b, exec (.step b) s = .refused .overlap) ∧ (∀ n, exec (.acquire n) s = .refused .overlap) ∧
      exec .reset s = .refused .overlap) ∧
    (s.busy = false → (∀ b, exec (.rdByte b) s = .refused .noReadPending) ∧
      exec .rdTimeout s = .refused .noReadPending ∧ exec .rdError s = .refused .noReadPending)

/-! ### The checksum engine -/

/-- The little-endian merge (R51): the byte at position `k` of the bytes is byte `k` of the value. -/
def Obligations.LittleEndianBytePositions : Prop :=
  (∀ (bs : List Byte) (k : Nat) (b : Byte), bs[k]? = some b → le bs / 256 ^ k % 256 = b.toNat) ∧
    ∀ bs : List Byte, le bs < 256 ^ bs.length

/-- SUM8 (R140): an 8-bit accumulator from 0 with wrap-around; the order does not matter; the seven fixed IMU bytes
contribute `0x35`. -/
def Obligations.SumIsAWrappingAccumulator : Prop :=
  sum8 [] = 0#8 ∧ (∀ (bs : List Byte) (b : Byte), sum8 (bs ++ [b]) = sum8 bs + b) ∧
    (∀ bs cs : List Byte, bs.Perm cs → sum8 bs = sum8 cs) ∧
    (∀ bs : List Byte, (sum8 bs).toNat = (bs.map BitVec.toNat).sum % 256) ∧
    ∀ p : List Byte, sum8 (imuHead ++ p) = 0x35#8 + sum8 p

/-- Changing a single byte changes the sum (R150 (d)). -/
def Obligations.SingleByteChangeChangesTheSum : Prop :=
  ∀ (bs : List Byte) (k : Nat) (b : Byte), k < bs.length → bs[k]? ≠ some b → sum8 (bs.set k b) ≠ sum8 bs

/-- CRC32 (R143, R144): seeded at 0, one table update per byte, no final XOR; leading zero bytes do not change it; of a single
byte it is that byte's table entry; the check value of "123456789". -/
def Obligations.CrcIsAFoldFromZero : Prop :=
  ∀ c : Config, c.Legal → c.proto = .gps →
    crc32 c [] = 0x00000000#32 ∧
      (∀ (bs : List Byte) (b : Byte),
        crc32 c (bs ++ [b]) = (crc32 c bs >>> 8) ^^^ crcTab c.poly ((crc32 c bs).extractLsb' 0 8 ^^^ b)) ∧
      (∀ (n : Nat) (bs : List Byte), crc32 c (List.replicate n 0x00#8 ++ bs) = crc32 c bs) ∧
      (∀ i : Byte, crc32 c [i] = crcTab c.poly i) ∧
      crc32 c [0x31#8, 0x32#8, 0x33#8, 0x34#8, 0x35#8, 0x36#8, 0x37#8, 0x38#8, 0x39#8] = 0x2DFD2D88#32

/-- BSWAP32 (R145) reverses the four bytes, so it is its own inverse. -/
def Obligations.ByteSwapReversesTheBytes : Prop :=
  ∀ v : Word, bswap32 (bswap32 v) = v ∧
    ∀ k, k < 4 → (bswap32 v).toNat / 256 ^ k % 256 = v.toNat / 256 ^ (3 - k) % 256

/-- The CRC comparison succeeds exactly when the four trailer bytes are the computed CRC, most significant byte first
(R152 (c)). -/
def Obligations.CrcTrailerMostSignificantFirst : Prop :=
  ∀ (c : Word) (b0 b1 b2 b3 : Byte),
    bswap32 c = BitVec.ofNat 32 (le [b0, b1, b2, b3]) ↔ [b0, b1, b2, b3] = bigEndian32 c

/-! ### Rules over all operations -/

/-- Every store is one byte wide, and a byte operation, and so a STEP, makes at most one (R53): SYNC, CVER, PASS, PAYF, PAYV and TSUM at
`byteIndex`, ACC16, ACC32, ACCLEN and TCRC at `byteIndex + subIndex`, SKIP none; a byte that fails a SYNC or CVER comparison is
not stored. -/
def Obligations.ByteOperationsStoreAtMostOneByte : Prop :=
  (∀ (op : ByteOp) (b : Byte) (s t : State), s.byteIn = some b → exec op.toInstr s = .next t → StoresOnly op b s t) ∧
    ∀ (b : Byte) (s t : State), exec (.step b) s = .next t → ∃ op, s.selectOp = .ok op ∧ StoresOnly op b s t

/-- No operation writes the descriptor or any other static parameter (R34, R64), whatever instruction runs. -/
def Obligations.NoOperationWritesTheDescriptor : Prop :=
  (∀ (i : Instr) (s t : State), exec i s = .next t → t.cfg = s.cfg) ∧
    ∀ s t : State, step s = .next t → t.cfg = s.cfg

/-- The results of a completion are written only by a completion (R22, R30, R32; decisions D7, D11): a byte operation that is not TSUM or
TCRC keeps `length`, `check_ok`, `rxCheck`, `calcCheck` and `ready`, and so does TCRC before its fourth byte; `length` changes only with
`ready` set. -/
def Obligations.ResultsAreWrittenOnlyAtCompletion : Prop :=
  ∀ (op : ByteOp) (s t : State), exec op.toInstr s = .next t →
    ((op ≠ .tsum ∧ (op ≠ .tcrc ∨ (s.subIndex + 1#3).toNat ≠ 4)) → SameReport s t ∧ t.ready = s.ready) ∧
    (t.length ≠ s.length → t.ready = true)

/-- Nothing but the accumulate entries writes a field register in a byte operation (R23): every other byte operation keeps all
seven, and an accumulate entry keeps all but its own. -/
def Obligations.FieldsAreWrittenOnlyByTheirEntry : Prop :=
  ∀ (op : ByteOp) (s t : State), exec op.toInstr s = .next t →
    ∀ d, op ≠ .acc16 d → op ≠ .acc32 d → (op = .acclen → d ≠ .messageLength) → t.readField d = s.readField d

/-- The entry of a condition (R210): a byte operation that records an event leaves the cursor at (Sync, 0, 0) and the field
registers other than `messageLength` as they were; nothing is saved. -/
def Obligations.EveryConditionResyncs : Prop :=
  ∀ (op : ByteOp) (s t : State), exec op.toInstr s = .next t → s.event = .none → t.event ≠ .none →
    t.cur = resync ∧ (∀ d, d ≠ .messageLength → t.readField d = s.readField d) ∧
    (t.event = .syncMismatch ∨ t.event = .headerFieldInvalid → SameReport s t ∧ t.ready = s.ready) ∧
    (t.event = .checksumMismatch → t.checkOk = false ∧ t.length = s.length ∧ t.ready = s.ready) ∧
    (t.event = .crcMismatch → t.checkOk = false ∧ t.ready = true)

/-- The Sync stage is idempotent (R102): a STEP from (Sync, 0, 0) gives the same cursor, `ready` and `event` whatever the buffer, the
registers and the flags hold. -/
def Obligations.SyncStageIgnoresHistory : Prop :=
  ∀ (b : Byte) (s s' : State), s.cfg.Legal → s'.cfg = s.cfg → s.busy = false → s'.busy = false →
    s.cur = (.sync, 0, 0) → s'.cur = (.sync, 0, 0) →
    ∃ t t', exec (.step b) s = .next t ∧ exec (.step b) s' = .next t' ∧
      t.cur = t'.cur ∧ t.ready = t'.ready ∧ t.event = t'.event

/-! ### Invariants and whole-machine rules -/

/-- The invariant holds after reset, for either format (R27). -/
def Obligations.ResetMeetsTheInvariant : Prop :=
  ∀ p : Proto, (State.resetOf (Config.ofProto p)).Inv ∧ State.reset.Inv

/-- The invariant is kept by every step (R27: the cursor invariants "hold after RESET and after every STEP"). -/
def Obligations.EveryStepKeepsTheInvariant : Prop :=
  ∀ s t : State, s.Inv → step s = .next t → t.Inv

/-- From a state with the invariant no step faults: every buffer access of a byte operation is in range (R27 (e)), and a
step has no meaning only where the word on an interface has none. -/
def Obligations.LegalInstanceNeverFaults : Prop :=
  ∀ s : State, s.Inv →
    (∀ f, step s ≠ .fault f) ∧
    ((∀ w ∈ s.commands, w.extractLsb' 16 2 = 0#2 ∨ ∃ i, decode (.command w) = .ok i) →
      (∀ w ∈ s.source, ∃ i, decode (.outcome w) = .ok i) → ∃ t, step s = .next t)

/-- The complete transition table (R105): a STEP in any legal state completes, whatever the byte (R78), and its cursor, `ready`
and `event` are those of the one row it takes. -/
def Obligations.StepFollowsTheTransitionTable : Prop :=
  ∀ (b : Byte) (s : State), s.Inv → s.busy = false →
    ∃ t, exec (.step b) s = .next t ∧ (t.cur, t.ready, t.event) = transition s b

/-- What `ready` reports is kept by every step (R9, R22, R30). -/
def Obligations.ReadyMeansAReportedFrame : Prop :=
  ∀ s t : State, s.Inv → s.Reports → step s = .next t → t.Reports

/-- The field registers agree with the buffer bytes they were merged from, as soon as each is complete, through
payload and trailer and at `ready` (R52, R66). -/
def Obligations.FieldRegistersAgreeWithTheBuffer : Prop :=
  ∀ s t : State, s.Inv → s.FieldsMatch → step s = .next t → t.FieldsMatch

/-- GPS cells 24 and 25 are never written (R57; decision D10), and an IMU instance's absent field registers stay 0 (the model's,
log entry 17). -/
def Obligations.SkippedCellsAreNeverWritten : Prop :=
  ∀ s t : State, s.Inv → step s = .next t →
    (s.SkippedCellsReset → t.SkippedCellsReset) ∧ (s.ImuFieldsZero → t.ImuFieldsZero)

/-- An IMU frame (R71) fed from (Sync, 0, 0) is complete after exactly 38 STEPs, whatever the buffer held before, and is reported
exactly when its checksum byte is the sum of the first 37; no earlier STEP reports. -/
def Obligations.ImuFrameIsAcceptedByItsSum : Prop :=
  ∀ (s : State) (p : List Byte) (k : Byte), s.Inv → s.busy = false → s.cfg.proto = .imu → s.cur = (.sync, 0, 0) →
    p.length = 30 →
    (∀ j, 1 ≤ j → j < 38 → ∃ u, feed ((imuHead ++ p ++ [k]).take j) s = .next u ∧ u.ready = false) ∧
    ∃ t, feed (imuHead ++ p ++ [k]) s = .next t ∧ t.cur = (.sync, 0, 0) ∧
      t.ready = (k == sum8 (imuHead ++ p)) ∧ t.checkOk = t.ready ∧
      t.event = (if k = sum8 (imuHead ++ p) then .none else .checksumMismatch) ∧
      t.buf.slice 0 38 = imuHead ++ p ++ [k] ∧
      (k = sum8 (imuHead ++ p) → t.length.toNat = 38)

/-- A GPS frame (R73) with an admitted length fed from (Sync, 0, 0) is reported after exactly `32 + messageLength` STEPs with its
seven fields, `check_ok` exactly when the trailer is the CRC of the buffer image (the reserved cells as `BUF_RESET`) most
significant byte first. -/
def Obligations.GpsFrameIsReportedWithItsFields : Prop :=
  ∀ (s : State) (h : GpsHeader) (p trailer : List Byte), s.Inv → s.busy = false → s.cfg.proto = .gps →
    s.SkippedCellsReset → s.cur = (.sync, 0, 0) →
    p.length = h.messageLength.toNat → 1 ≤ p.length → p.length ≤ 468 → trailer.length = 4 →
    (∀ j, 1 ≤ j → j < 32 + p.length →
      ∃ u, feed ((h.wire ++ p ++ trailer).take j) s = .next u ∧ u.ready = false) ∧
    ∃ t, feed (h.wire ++ p ++ trailer) s = .next t ∧ t.cur = (.sync, 0, 0) ∧ t.ready = true ∧
      t.length.toNat = 32 + p.length ∧
      t.messageId = h.messageId ∧ t.messageLength = h.messageLength ∧ t.sequenceNumber = h.sequenceNumber ∧
      t.timeWeek = h.timeWeek ∧ t.timeMs = h.timeMs ∧ t.status = h.status ∧ t.swVersion = h.swVersion ∧
      t.buf.slice 0 (32 + p.length) = h.stored ++ p ++ trailer ∧
      t.calcCheck = crc32 s.cfg (h.stored ++ p) ∧
      t.checkOk = (trailer == bigEndian32 (crc32 s.cfg (h.stored ++ p))) ∧
      t.event = (if trailer = bigEndian32 (crc32 s.cfg (h.stored ++ p)) then .none else .crcMismatch)
end

