-- ==== Sys2Proof/Laws/State.lean ====
section
/-! SUPPORT. What each named update of the state does to each field. -/

namespace Sys2Proof.Machine

/-! ### `setCursor` -/

@[simp] theorem State.setCursor_cfg (s : State) (st : Stage) (i : Index) (j : SubIndex) : (s.setCursor st i j).cfg = s.cfg := rfl
@[simp] theorem State.setCursor_buf (s : State) (st : Stage) (i : Index) (j : SubIndex) : (s.setCursor st i j).buf = s.buf := rfl
@[simp] theorem State.setCursor_length (s : State) (st : Stage) (i : Index) (j : SubIndex) : (s.setCursor st i j).length = s.length := rfl
@[simp] theorem State.setCursor_messageId (s : State) (st : Stage) (i : Index) (j : SubIndex) : (s.setCursor st i j).messageId = s.messageId := rfl
@[simp] theorem State.setCursor_messageLength (s : State) (st : Stage) (i : Index) (j : SubIndex) : (s.setCursor st i j).messageLength = s.messageLength := rfl
@[simp] theorem State.setCursor_sequenceNumber (s : State) (st : Stage) (i : Index) (j : SubIndex) : (s.setCursor st i j).sequenceNumber = s.sequenceNumber := rfl
@[simp] theorem State.setCursor_timeWeek (s : State) (st : Stage) (i : Index) (j : SubIndex) : (s.setCursor st i j).timeWeek = s.timeWeek := rfl
@[simp] theorem State.setCursor_timeMs (s : State) (st : Stage) (i : Index) (j : SubIndex) : (s.setCursor st i j).timeMs = s.timeMs := rfl
@[simp] theorem State.setCursor_status (s : State) (st : Stage) (i : Index) (j : SubIndex) : (s.setCursor st i j).status = s.status := rfl
@[simp] theorem State.setCursor_swVersion (s : State) (st : Stage) (i : Index) (j : SubIndex) : (s.setCursor st i j).swVersion = s.swVersion := rfl
@[simp] theorem State.setCursor_stage (s : State) (st : Stage) (i : Index) (j : SubIndex) : (s.setCursor st i j).stage = st := rfl
@[simp] theorem State.setCursor_byteIndex (s : State) (st : Stage) (i : Index) (j : SubIndex) : (s.setCursor st i j).byteIndex = i := rfl
@[simp] theorem State.setCursor_subIndex (s : State) (st : Stage) (i : Index) (j : SubIndex) : (s.setCursor st i j).subIndex = j := rfl
@[simp] theorem State.setCursor_ready (s : State) (st : Stage) (i : Index) (j : SubIndex) : (s.setCursor st i j).ready = s.ready := rfl
@[simp] theorem State.setCursor_checkOk (s : State) (st : Stage) (i : Index) (j : SubIndex) : (s.setCursor st i j).checkOk = s.checkOk := rfl
@[simp] theorem State.setCursor_event (s : State) (st : Stage) (i : Index) (j : SubIndex) : (s.setCursor st i j).event = s.event := rfl
@[simp] theorem State.setCursor_rxCheck (s : State) (st : Stage) (i : Index) (j : SubIndex) : (s.setCursor st i j).rxCheck = s.rxCheck := rfl
@[simp] theorem State.setCursor_calcCheck (s : State) (st : Stage) (i : Index) (j : SubIndex) : (s.setCursor st i j).calcCheck = s.calcCheck := rfl
@[simp] theorem State.setCursor_attempts (s : State) (st : Stage) (i : Index) (j : SubIndex) : (s.setCursor st i j).attempts = s.attempts := rfl
@[simp] theorem State.setCursor_acqResult (s : State) (st : Stage) (i : Index) (j : SubIndex) : (s.setCursor st i j).acqResult = s.acqResult := rfl
@[simp] theorem State.setCursor_byteIn (s : State) (st : Stage) (i : Index) (j : SubIndex) : (s.setCursor st i j).byteIn = s.byteIn := rfl
@[simp] theorem State.setCursor_budget (s : State) (st : Stage) (i : Index) (j : SubIndex) : (s.setCursor st i j).budget = s.budget := rfl
@[simp] theorem State.setCursor_commands (s : State) (st : Stage) (i : Index) (j : SubIndex) : (s.setCursor st i j).commands = s.commands := rfl
@[simp] theorem State.setCursor_source (s : State) (st : Stage) (i : Index) (j : SubIndex) : (s.setCursor st i j).source = s.source := rfl
@[simp] theorem State.setCursor_freeReads (s : State) (st : Stage) (i : Index) (j : SubIndex) : (s.setCursor st i j).freeReads = s.freeReads := rfl

/-! ### `raise` -/

@[simp] theorem State.raise_cfg (s : State) (e : Event) : (s.raise e).cfg = s.cfg := rfl
@[simp] theorem State.raise_buf (s : State) (e : Event) : (s.raise e).buf = s.buf := rfl
@[simp] theorem State.raise_length (s : State) (e : Event) : (s.raise e).length = s.length := rfl
@[simp] theorem State.raise_messageId (s : State) (e : Event) : (s.raise e).messageId = s.messageId := rfl
@[simp] theorem State.raise_messageLength (s : State) (e : Event) : (s.raise e).messageLength = s.messageLength := rfl
@[simp] theorem State.raise_sequenceNumber (s : State) (e : Event) : (s.raise e).sequenceNumber = s.sequenceNumber := rfl
@[simp] theorem State.raise_timeWeek (s : State) (e : Event) : (s.raise e).timeWeek = s.timeWeek := rfl
@[simp] theorem State.raise_timeMs (s : State) (e : Event) : (s.raise e).timeMs = s.timeMs := rfl
@[simp] theorem State.raise_status (s : State) (e : Event) : (s.raise e).status = s.status := rfl
@[simp] theorem State.raise_swVersion (s : State) (e : Event) : (s.raise e).swVersion = s.swVersion := rfl
@[simp] theorem State.raise_stage (s : State) (e : Event) : (s.raise e).stage = .sync := rfl
@[simp] theorem State.raise_byteIndex (s : State) (e : Event) : (s.raise e).byteIndex = 0#9 := rfl
@[simp] theorem State.raise_subIndex (s : State) (e : Event) : (s.raise e).subIndex = 0#3 := rfl
@[simp] theorem State.raise_ready (s : State) (e : Event) : (s.raise e).ready = s.ready := rfl
@[simp] theorem State.raise_checkOk (s : State) (e : Event) : (s.raise e).checkOk = s.checkOk := rfl
@[simp] theorem State.raise_event (s : State) (e : Event) : (s.raise e).event = e := rfl
@[simp] theorem State.raise_rxCheck (s : State) (e : Event) : (s.raise e).rxCheck = s.rxCheck := rfl
@[simp] theorem State.raise_calcCheck (s : State) (e : Event) : (s.raise e).calcCheck = s.calcCheck := rfl
@[simp] theorem State.raise_attempts (s : State) (e : Event) : (s.raise e).attempts = s.attempts := rfl
@[simp] theorem State.raise_acqResult (s : State) (e : Event) : (s.raise e).acqResult = s.acqResult := rfl
@[simp] theorem State.raise_byteIn (s : State) (e : Event) : (s.raise e).byteIn = s.byteIn := rfl
@[simp] theorem State.raise_budget (s : State) (e : Event) : (s.raise e).budget = s.budget := rfl
@[simp] theorem State.raise_commands (s : State) (e : Event) : (s.raise e).commands = s.commands := rfl
@[simp] theorem State.raise_source (s : State) (e : Event) : (s.raise e).source = s.source := rfl
@[simp] theorem State.raise_freeReads (s : State) (e : Event) : (s.raise e).freeReads = s.freeReads := rfl

/-! ### `advance` -/

@[simp] theorem State.advance_cfg (s : State) (w : Nat) : (s.advance w).cfg = s.cfg := rfl
@[simp] theorem State.advance_buf (s : State) (w : Nat) : (s.advance w).buf = s.buf := rfl
@[simp] theorem State.advance_length (s : State) (w : Nat) : (s.advance w).length = s.length := rfl
@[simp] theorem State.advance_messageId (s : State) (w : Nat) : (s.advance w).messageId = s.messageId := rfl
@[simp] theorem State.advance_messageLength (s : State) (w : Nat) : (s.advance w).messageLength = s.messageLength := rfl
@[simp] theorem State.advance_sequenceNumber (s : State) (w : Nat) : (s.advance w).sequenceNumber = s.sequenceNumber := rfl
@[simp] theorem State.advance_timeWeek (s : State) (w : Nat) : (s.advance w).timeWeek = s.timeWeek := rfl
@[simp] theorem State.advance_timeMs (s : State) (w : Nat) : (s.advance w).timeMs = s.timeMs := rfl
@[simp] theorem State.advance_status (s : State) (w : Nat) : (s.advance w).status = s.status := rfl
@[simp] theorem State.advance_swVersion (s : State) (w : Nat) : (s.advance w).swVersion = s.swVersion := rfl
@[simp] theorem State.advance_stage (s : State) (w : Nat) : (s.advance w).stage = (if (s.byteIndex + BitVec.ofNat 9 w).toNat = s.cfg.hdrLen then .payload else s.stage) := rfl
@[simp] theorem State.advance_byteIndex (s : State) (w : Nat) : (s.advance w).byteIndex = s.byteIndex + BitVec.ofNat 9 w := rfl
@[simp] theorem State.advance_subIndex (s : State) (w : Nat) : (s.advance w).subIndex = 0#3 := rfl
@[simp] theorem State.advance_ready (s : State) (w : Nat) : (s.advance w).ready = s.ready := rfl
@[simp] theorem State.advance_checkOk (s : State) (w : Nat) : (s.advance w).checkOk = s.checkOk := rfl
@[simp] theorem State.advance_event (s : State) (w : Nat) : (s.advance w).event = s.event := rfl
@[simp] theorem State.advance_rxCheck (s : State) (w : Nat) : (s.advance w).rxCheck = s.rxCheck := rfl
@[simp] theorem State.advance_calcCheck (s : State) (w : Nat) : (s.advance w).calcCheck = s.calcCheck := rfl
@[simp] theorem State.advance_attempts (s : State) (w : Nat) : (s.advance w).attempts = s.attempts := rfl
@[simp] theorem State.advance_acqResult (s : State) (w : Nat) : (s.advance w).acqResult = s.acqResult := rfl
@[simp] theorem State.advance_byteIn (s : State) (w : Nat) : (s.advance w).byteIn = s.byteIn := rfl
@[simp] theorem State.advance_budget (s : State) (w : Nat) : (s.advance w).budget = s.budget := rfl
@[simp] theorem State.advance_commands (s : State) (w : Nat) : (s.advance w).commands = s.commands := rfl
@[simp] theorem State.advance_source (s : State) (w : Nat) : (s.advance w).source = s.source := rfl
@[simp] theorem State.advance_freeReads (s : State) (w : Nat) : (s.advance w).freeReads = s.freeReads := rfl

/-! ### `clearFlags` -/

@[simp] theorem State.clearFlags_cfg (s : State) : (s.clearFlags).cfg = s.cfg := rfl
@[simp] theorem State.clearFlags_buf (s : State) : (s.clearFlags).buf = s.buf := rfl
@[simp] theorem State.clearFlags_length (s : State) : (s.clearFlags).length = s.length := rfl
@[simp] theorem State.clearFlags_messageId (s : State) : (s.clearFlags).messageId = s.messageId := rfl
@[simp] theorem State.clearFlags_messageLength (s : State) : (s.clearFlags).messageLength = s.messageLength := rfl
@[simp] theorem State.clearFlags_sequenceNumber (s : State) : (s.clearFlags).sequenceNumber = s.sequenceNumber := rfl
@[simp] theorem State.clearFlags_timeWeek (s : State) : (s.clearFlags).timeWeek = s.timeWeek := rfl
@[simp] theorem State.clearFlags_timeMs (s : State) : (s.clearFlags).timeMs = s.timeMs := rfl
@[simp] theorem State.clearFlags_status (s : State) : (s.clearFlags).status = s.status := rfl
@[simp] theorem State.clearFlags_swVersion (s : State) : (s.clearFlags).swVersion = s.swVersion := rfl
@[simp] theorem State.clearFlags_stage (s : State) : (s.clearFlags).stage = s.stage := rfl
@[simp] theorem State.clearFlags_byteIndex (s : State) : (s.clearFlags).byteIndex = s.byteIndex := rfl
@[simp] theorem State.clearFlags_subIndex (s : State) : (s.clearFlags).subIndex = s.subIndex := rfl
@[simp] theorem State.clearFlags_ready (s : State) : (s.clearFlags).ready = false := rfl
@[simp] theorem State.clearFlags_checkOk (s : State) : (s.clearFlags).checkOk = s.checkOk := rfl
@[simp] theorem State.clearFlags_event (s : State) : (s.clearFlags).event = .none := rfl
@[simp] theorem State.clearFlags_rxCheck (s : State) : (s.clearFlags).rxCheck = s.rxCheck := rfl
@[simp] theorem State.clearFlags_calcCheck (s : State) : (s.clearFlags).calcCheck = s.calcCheck := rfl
@[simp] theorem State.clearFlags_attempts (s : State) : (s.clearFlags).attempts = s.attempts := rfl
@[simp] theorem State.clearFlags_acqResult (s : State) : (s.clearFlags).acqResult = s.acqResult := rfl
@[simp] theorem State.clearFlags_byteIn (s : State) : (s.clearFlags).byteIn = s.byteIn := rfl
@[simp] theorem State.clearFlags_budget (s : State) : (s.clearFlags).budget = s.budget := rfl
@[simp] theorem State.clearFlags_commands (s : State) : (s.clearFlags).commands = s.commands := rfl
@[simp] theorem State.clearFlags_source (s : State) : (s.clearFlags).source = s.source := rfl
@[simp] theorem State.clearFlags_freeReads (s : State) : (s.clearFlags).freeReads = s.freeReads := rfl

/-! ### `beginAcquire` -/

@[simp] theorem State.beginAcquire_cfg (s : State) (n : Half) : (s.beginAcquire n).cfg = s.cfg := rfl
@[simp] theorem State.beginAcquire_buf (s : State) (n : Half) : (s.beginAcquire n).buf = s.buf := rfl
@[simp] theorem State.beginAcquire_length (s : State) (n : Half) : (s.beginAcquire n).length = s.length := rfl
@[simp] theorem State.beginAcquire_messageId (s : State) (n : Half) : (s.beginAcquire n).messageId = s.messageId := rfl
@[simp] theorem State.beginAcquire_messageLength (s : State) (n : Half) : (s.beginAcquire n).messageLength = s.messageLength := rfl
@[simp] theorem State.beginAcquire_sequenceNumber (s : State) (n : Half) : (s.beginAcquire n).sequenceNumber = s.sequenceNumber := rfl
@[simp] theorem State.beginAcquire_timeWeek (s : State) (n : Half) : (s.beginAcquire n).timeWeek = s.timeWeek := rfl
@[simp] theorem State.beginAcquire_timeMs (s : State) (n : Half) : (s.beginAcquire n).timeMs = s.timeMs := rfl
@[simp] theorem State.beginAcquire_status (s : State) (n : Half) : (s.beginAcquire n).status = s.status := rfl
@[simp] theorem State.beginAcquire_swVersion (s : State) (n : Half) : (s.beginAcquire n).swVersion = s.swVersion := rfl
@[simp] theorem State.beginAcquire_stage (s : State) (n : Half) : (s.beginAcquire n).stage = s.stage := rfl
@[simp] theorem State.beginAcquire_byteIndex (s : State) (n : Half) : (s.beginAcquire n).byteIndex = s.byteIndex := rfl
@[simp] theorem State.beginAcquire_subIndex (s : State) (n : Half) : (s.beginAcquire n).subIndex = s.subIndex := rfl
@[simp] theorem State.beginAcquire_ready (s : State) (n : Half) : (s.beginAcquire n).ready = false := rfl
@[simp] theorem State.beginAcquire_checkOk (s : State) (n : Half) : (s.beginAcquire n).checkOk = s.checkOk := rfl
@[simp] theorem State.beginAcquire_event (s : State) (n : Half) : (s.beginAcquire n).event = .none := rfl
@[simp] theorem State.beginAcquire_rxCheck (s : State) (n : Half) : (s.beginAcquire n).rxCheck = s.rxCheck := rfl
@[simp] theorem State.beginAcquire_calcCheck (s : State) (n : Half) : (s.beginAcquire n).calcCheck = s.calcCheck := rfl
@[simp] theorem State.beginAcquire_attempts (s : State) (n : Half) : (s.beginAcquire n).attempts = 0#16 := rfl
@[simp] theorem State.beginAcquire_acqResult (s : State) (n : Half) : (s.beginAcquire n).acqResult = s.acqResult := rfl
@[simp] theorem State.beginAcquire_byteIn (s : State) (n : Half) : (s.beginAcquire n).byteIn = s.byteIn := rfl
@[simp] theorem State.beginAcquire_budget (s : State) (n : Half) : (s.beginAcquire n).budget = some n := rfl
@[simp] theorem State.beginAcquire_commands (s : State) (n : Half) : (s.beginAcquire n).commands = s.commands := rfl
@[simp] theorem State.beginAcquire_source (s : State) (n : Half) : (s.beginAcquire n).source = s.source := rfl
@[simp] theorem State.beginAcquire_freeReads (s : State) (n : Half) : (s.beginAcquire n).freeReads = s.freeReads := rfl

/-! ### `endAcquire` -/

@[simp] theorem State.endAcquire_cfg (s : State) (r : AcqResult) : (s.endAcquire r).cfg = s.cfg := rfl
@[simp] theorem State.endAcquire_buf (s : State) (r : AcqResult) : (s.endAcquire r).buf = s.buf := rfl
@[simp] theorem State.endAcquire_length (s : State) (r : AcqResult) : (s.endAcquire r).length = s.length := rfl
@[simp] theorem State.endAcquire_messageId (s : State) (r : AcqResult) : (s.endAcquire r).messageId = s.messageId := rfl
@[simp] theorem State.endAcquire_messageLength (s : State) (r : AcqResult) : (s.endAcquire r).messageLength = s.messageLength := rfl
@[simp] theorem State.endAcquire_sequenceNumber (s : State) (r : AcqResult) : (s.endAcquire r).sequenceNumber = s.sequenceNumber := rfl
@[simp] theorem State.endAcquire_timeWeek (s : State) (r : AcqResult) : (s.endAcquire r).timeWeek = s.timeWeek := rfl
@[simp] theorem State.endAcquire_timeMs (s : State) (r : AcqResult) : (s.endAcquire r).timeMs = s.timeMs := rfl
@[simp] theorem State.endAcquire_status (s : State) (r : AcqResult) : (s.endAcquire r).status = s.status := rfl
@[simp] theorem State.endAcquire_swVersion (s : State) (r : AcqResult) : (s.endAcquire r).swVersion = s.swVersion := rfl
@[simp] theorem State.endAcquire_stage (s : State) (r : AcqResult) : (s.endAcquire r).stage = s.stage := rfl
@[simp] theorem State.endAcquire_byteIndex (s : State) (r : AcqResult) : (s.endAcquire r).byteIndex = s.byteIndex := rfl
@[simp] theorem State.endAcquire_subIndex (s : State) (r : AcqResult) : (s.endAcquire r).subIndex = s.subIndex := rfl
@[simp] theorem State.endAcquire_ready (s : State) (r : AcqResult) : (s.endAcquire r).ready = s.ready := rfl
@[simp] theorem State.endAcquire_checkOk (s : State) (r : AcqResult) : (s.endAcquire r).checkOk = s.checkOk := rfl
@[simp] theorem State.endAcquire_event (s : State) (r : AcqResult) : (s.endAcquire r).event = s.event := rfl
@[simp] theorem State.endAcquire_rxCheck (s : State) (r : AcqResult) : (s.endAcquire r).rxCheck = s.rxCheck := rfl
@[simp] theorem State.endAcquire_calcCheck (s : State) (r : AcqResult) : (s.endAcquire r).calcCheck = s.calcCheck := rfl
@[simp] theorem State.endAcquire_attempts (s : State) (r : AcqResult) : (s.endAcquire r).attempts = s.attempts := rfl
@[simp] theorem State.endAcquire_acqResult (s : State) (r : AcqResult) : (s.endAcquire r).acqResult = r := rfl
@[simp] theorem State.endAcquire_byteIn (s : State) (r : AcqResult) : (s.endAcquire r).byteIn = s.byteIn := rfl
@[simp] theorem State.endAcquire_budget (s : State) (r : AcqResult) : (s.endAcquire r).budget = none := rfl
@[simp] theorem State.endAcquire_commands (s : State) (r : AcqResult) : (s.endAcquire r).commands = s.commands := rfl
@[simp] theorem State.endAcquire_source (s : State) (r : AcqResult) : (s.endAcquire r).source = s.source := rfl
@[simp] theorem State.endAcquire_freeReads (s : State) (r : AcqResult) : (s.endAcquire r).freeReads = s.freeReads := rfl

/-! ### `testBudget` -/

@[simp] theorem State.testBudget_cfg (s : State) (n : Half) : (s.testBudget n).cfg = s.cfg := by
  unfold State.testBudget; split <;> rfl
@[simp] theorem State.testBudget_buf (s : State) (n : Half) : (s.testBudget n).buf = s.buf := by
  unfold State.testBudget; split <;> rfl
@[simp] theorem State.testBudget_length (s : State) (n : Half) : (s.testBudget n).length = s.length := by
  unfold State.testBudget; split <;> rfl
@[simp] theorem State.testBudget_messageId (s : State) (n : Half) : (s.testBudget n).messageId = s.messageId := by
  unfold State.testBudget; split <;> rfl
@[simp] theorem State.testBudget_messageLength (s : State) (n : Half) : (s.testBudget n).messageLength = s.messageLength := by
  unfold State.testBudget; split <;> rfl
@[simp] theorem State.testBudget_sequenceNumber (s : State) (n : Half) : (s.testBudget n).sequenceNumber = s.sequenceNumber := by
  unfold State.testBudget; split <;> rfl
@[simp] theorem State.testBudget_timeWeek (s : State) (n : Half) : (s.testBudget n).timeWeek = s.timeWeek := by
  unfold State.testBudget; split <;> rfl
@[simp] theorem State.testBudget_timeMs (s : State) (n : Half) : (s.testBudget n).timeMs = s.timeMs := by
  unfold State.testBudget; split <;> rfl
@[simp] theorem State.testBudget_status (s : State) (n : Half) : (s.testBudget n).status = s.status := by
  unfold State.testBudget; split <;> rfl
@[simp] theorem State.testBudget_swVersion (s : State) (n : Half) : (s.testBudget n).swVersion = s.swVersion := by
  unfold State.testBudget; split <;> rfl
@[simp] theorem State.testBudget_stage (s : State) (n : Half) : (s.testBudget n).stage = s.stage := by
  unfold State.testBudget; split <;> rfl
@[simp] theorem State.testBudget_byteIndex (s : State) (n : Half) : (s.testBudget n).byteIndex = s.byteIndex := by
  unfold State.testBudget; split <;> rfl
@[simp] theorem State.testBudget_subIndex (s : State) (n : Half) : (s.testBudget n).subIndex = s.subIndex := by
  unfold State.testBudget; split <;> rfl
@[simp] theorem State.testBudget_ready (s : State) (n : Half) : (s.testBudget n).ready = s.ready := by
  unfold State.testBudget; split <;> rfl
@[simp] theorem State.testBudget_checkOk (s : State) (n : Half) : (s.testBudget n).checkOk = s.checkOk := by
  unfold State.testBudget; split <;> rfl
@[simp] theorem State.testBudget_event (s : State) (n : Half) : (s.testBudget n).event = s.event := by
  unfold State.testBudget; split <;> rfl
@[simp] theorem State.testBudget_rxCheck (s : State) (n : Half) : (s.testBudget n).rxCheck = s.rxCheck := by
  unfold State.testBudget; split <;> rfl
@[simp] theorem State.testBudget_calcCheck (s : State) (n : Half) : (s.testBudget n).calcCheck = s.calcCheck := by
  unfold State.testBudget; split <;> rfl
@[simp] theorem State.testBudget_attempts (s : State) (n : Half) : (s.testBudget n).attempts = s.attempts := by
  unfold State.testBudget; split <;> rfl
@[simp] theorem State.testBudget_byteIn (s : State) (n : Half) : (s.testBudget n).byteIn = s.byteIn := by
  unfold State.testBudget; split <;> rfl
@[simp] theorem State.testBudget_commands (s : State) (n : Half) : (s.testBudget n).commands = s.commands := by
  unfold State.testBudget; split <;> rfl
@[simp] theorem State.testBudget_source (s : State) (n : Half) : (s.testBudget n).source = s.source := by
  unfold State.testBudget; split <;> rfl
@[simp] theorem State.testBudget_freeReads (s : State) (n : Half) : (s.testBudget n).freeReads = s.freeReads := by
  unfold State.testBudget; split <;> rfl

/-! ### `writeField` -/

@[simp] theorem State.writeField_cfg (s : State) (d : Dest) (v : Nat) : (s.writeField d v).cfg = s.cfg := by
  cases d <;> rfl
@[simp] theorem State.writeField_buf (s : State) (d : Dest) (v : Nat) : (s.writeField d v).buf = s.buf := by
  cases d <;> rfl
@[simp] theorem State.writeField_length (s : State) (d : Dest) (v : Nat) : (s.writeField d v).length = s.length := by
  cases d <;> rfl
@[simp] theorem State.writeField_stage (s : State) (d : Dest) (v : Nat) : (s.writeField d v).stage = s.stage := by
  cases d <;> rfl
@[simp] theorem State.writeField_byteIndex (s : State) (d : Dest) (v : Nat) : (s.writeField d v).byteIndex = s.byteIndex := by
  cases d <;> rfl
@[simp] theorem State.writeField_subIndex (s : State) (d : Dest) (v : Nat) : (s.writeField d v).subIndex = s.subIndex := by
  cases d <;> rfl
@[simp] theorem State.writeField_ready (s : State) (d : Dest) (v : Nat) : (s.writeField d v).ready = s.ready := by
  cases d <;> rfl
@[simp] theorem State.writeField_checkOk (s : State) (d : Dest) (v : Nat) : (s.writeField d v).checkOk = s.checkOk := by
  cases d <;> rfl
@[simp] theorem State.writeField_event (s : State) (d : Dest) (v : Nat) : (s.writeField d v).event = s.event := by
  cases d <;> rfl
@[simp] theorem State.writeField_rxCheck (s : State) (d : Dest) (v : Nat) : (s.writeField d v).rxCheck = s.rxCheck := by
  cases d <;> rfl
@[simp] theorem State.writeField_calcCheck (s : State) (d : Dest) (v : Nat) : (s.writeField d v).calcCheck = s.calcCheck := by
  cases d <;> rfl
@[simp] theorem State.writeField_attempts (s : State) (d : Dest) (v : Nat) : (s.writeField d v).attempts = s.attempts := by
  cases d <;> rfl
@[simp] theorem State.writeField_acqResult (s : State) (d : Dest) (v : Nat) : (s.writeField d v).acqResult = s.acqResult := by
  cases d <;> rfl
@[simp] theorem State.writeField_byteIn (s : State) (d : Dest) (v : Nat) : (s.writeField d v).byteIn = s.byteIn := by
  cases d <;> rfl
@[simp] theorem State.writeField_budget (s : State) (d : Dest) (v : Nat) : (s.writeField d v).budget = s.budget := by
  cases d <;> rfl
@[simp] theorem State.writeField_commands (s : State) (d : Dest) (v : Nat) : (s.writeField d v).commands = s.commands := by
  cases d <;> rfl
@[simp] theorem State.writeField_source (s : State) (d : Dest) (v : Nat) : (s.writeField d v).source = s.source := by
  cases d <;> rfl
@[simp] theorem State.writeField_freeReads (s : State) (d : Dest) (v : Nat) : (s.writeField d v).freeReads = s.freeReads := by
  cases d <;> rfl

/-! ### `resetRegisters` -/

@[simp] theorem State.resetRegisters_cfg (s : State) : (s.resetRegisters).cfg = s.cfg := rfl
@[simp] theorem State.resetRegisters_buf (s : State) : (s.resetRegisters).buf = [] := rfl
@[simp] theorem State.resetRegisters_length (s : State) : (s.resetRegisters).length = 0#9 := rfl
@[simp] theorem State.resetRegisters_messageId (s : State) : (s.resetRegisters).messageId = 0#16 := rfl
@[simp] theorem State.resetRegisters_messageLength (s : State) : (s.resetRegisters).messageLength = 0#16 := rfl
@[simp] theorem State.resetRegisters_sequenceNumber (s : State) : (s.resetRegisters).sequenceNumber = 0#16 := rfl
@[simp] theorem State.resetRegisters_timeWeek (s : State) : (s.resetRegisters).timeWeek = 0#16 := rfl
@[simp] theorem State.resetRegisters_timeMs (s : State) : (s.resetRegisters).timeMs = 0#32 := rfl
@[simp] theorem State.resetRegisters_status (s : State) : (s.resetRegisters).status = 0#32 := rfl
@[simp] theorem State.resetRegisters_swVersion (s : State) : (s.resetRegisters).swVersion = 0#16 := rfl
@[simp] theorem State.resetRegisters_stage (s : State) : (s.resetRegisters).stage = .sync := rfl
@[simp] theorem State.resetRegisters_byteIndex (s : State) : (s.resetRegisters).byteIndex = 0#9 := rfl
@[simp] theorem State.resetRegisters_subIndex (s : State) : (s.resetRegisters).subIndex = 0#3 := rfl
@[simp] theorem State.resetRegisters_ready (s : State) : (s.resetRegisters).ready = false := rfl
@[simp] theorem State.resetRegisters_checkOk (s : State) : (s.resetRegisters).checkOk = false := rfl
@[simp] theorem State.resetRegisters_event (s : State) : (s.resetRegisters).event = .none := rfl
@[simp] theorem State.resetRegisters_rxCheck (s : State) : (s.resetRegisters).rxCheck = 0#32 := rfl
@[simp] theorem State.resetRegisters_calcCheck (s : State) : (s.resetRegisters).calcCheck = 0#32 := rfl
@[simp] theorem State.resetRegisters_attempts (s : State) : (s.resetRegisters).attempts = 0#16 := rfl
@[simp] theorem State.resetRegisters_acqResult (s : State) : (s.resetRegisters).acqResult = .idle := rfl
@[simp] theorem State.resetRegisters_byteIn (s : State) : (s.resetRegisters).byteIn = s.byteIn := rfl
@[simp] theorem State.resetRegisters_budget (s : State) : (s.resetRegisters).budget = s.budget := rfl
@[simp] theorem State.resetRegisters_commands (s : State) : (s.resetRegisters).commands = s.commands := rfl
@[simp] theorem State.resetRegisters_source (s : State) : (s.resetRegisters).source = s.source := rfl
@[simp] theorem State.resetRegisters_freeReads (s : State) : (s.resetRegisters).freeReads = s.freeReads := rfl

/-! ### Field registers by name -/

/-- The register an entry names holds the value written, where its width admits it. -/
theorem State.readField_writeField_same (s : State) (d : Dest) (v k : Nat) (hk : d.width = some k) (hv : v < 2 ^ k) :
    (s.writeField d v).readField d = v := by
  cases d <;> simp_all [Dest.width, State.writeField, State.readField] <;> subst hk <;> omega

/-- Writing one register leaves the others. -/
theorem State.readField_writeField_other (s : State) (d d' : Dest) (v : Nat) (h : d' ≠ d) :
    (s.writeField d v).readField d' = s.readField d' := by
  cases d <;> cases d' <;> first | rfl | exact absurd rfl h

/-- The cursor's registers decide the operation that is selected, with the descriptor. -/
theorem State.selectOp_congr {s t : State} (hc : t.cfg = s.cfg) (hs : t.stage = s.stage)
    (hi : t.byteIndex = s.byteIndex) : t.selectOp = s.selectOp := by
  unfold State.selectOp State.entryWord
  rw [hc, hs, hi]

end Sys2Proof.Machine
end

