-- ==== Sys2Proof/Laws/Config.lean ====
section
/-! SUPPORT. The values of a legal instance's parameters (R8), and what its cursor selects. -/

namespace Sys2Proof

/-- The parameters of a legal IMU instance. -/
theorem Config.Legal.imu_fields {c : Config} (h : c.Legal) (hp : c.proto = .imu) :
    c.cap = 38 ∧ c.syncLen = 4 ∧ c.hdrLen = 7 ∧ c.trlLen = 1 ∧ c.maxLen = 30 ∧ c.entries = Config.imu.entries ∧
      c.payload = 0x62001E#24 ∧ c.trailer = 0x820000#24 ∧ c.syncSeq = [0xFF#8, 0xFF#8, 0xFF#8, 0xFF#8] ∧
      c.payFixed = 30 := by
  rw [Config.Legal, hp] at h
  rw [h]
  exact ⟨rfl, rfl, rfl, rfl, rfl, rfl, rfl, rfl, rfl, by simp [Config.payFixed, Config.ofProto, Config.imu]⟩

/-- The parameters of a legal GPS instance. -/
theorem Config.Legal.gps_fields {c : Config} (h : c.Legal) (hp : c.proto = .gps) :
    c.cap = 500 ∧ c.syncLen = 3 ∧ c.hdrLen = 28 ∧ c.trlLen = 4 ∧ c.maxLen = 468 ∧ c.entries = Config.gps.entries ∧
      c.payload = 0x722000#24 ∧ c.trailer = 0x980000#24 ∧ c.syncSeq = [0xAA#8, 0x44#8, 0x12#8] ∧
      c.poly = 0xEDB88320#32 ∧ c.crcSeed = 0x00000000#32 := by
  rw [Config.Legal, hp] at h
  rw [h]
  exact ⟨rfl, rfl, rfl, rfl, rfl, rfl, rfl, rfl, rfl, rfl, rfl⟩

/-- The bounds that both formats share. -/
theorem Config.Legal.bounds {c : Config} (h : c.Legal) :
    1 ≤ c.syncLen ∧ c.syncLen < c.hdrLen ∧ c.hdrLen ≤ 28 ∧ c.hdrLen + 5 ≤ c.cap ∧ c.cap ≤ 500 := by
  cases hp : c.proto with
  | imu =>
    obtain ⟨h1, h2, h3, -⟩ := h.imu_fields hp
    omega
  | gps =>
    obtain ⟨h1, h2, h3, -⟩ := h.gps_fields hp
    omega

end Sys2Proof

namespace Sys2Proof.Machine

/-- In the Sync and Header stages the selected operation is that of the entry at `byteIndex`. -/
theorem State.selectOp_of_entry {s : State} {w : DescWord} {op : ByteOp} (he : s.entryWord = some w)
    (hd : decodeByteOp w = .ok op) : s.selectOp = .ok op := by
  simp [State.selectOp, he, hd]

end Sys2Proof.Machine
end

