-- ==== Sys2Proof/Laws/Memory.lean ====
section
/-! SUPPORT. The laws of the frame buffer: a read after a write, and the canonical form. -/

namespace Sys2Proof.Machine

@[simp] theorem Memory.read_nil (x : Nat) : Memory.read [] x = Config.bufReset := rfl

theorem Memory.read_cons (a : Nat) (v : Byte) (m : Memory) (x : Nat) :
    Memory.read ((a, v) :: m) x = if x = a then v else Memory.read m x := rfl

theorem Memory.read_erase (m : Memory) (x y : Nat) :
    (m.erase x).read y = if y = x then Config.bufReset else m.read y := by
  induction m with
  | nil => simp [Memory.erase]
  | cons c m ih =>
    obtain ⟨a, v⟩ := c
    simp only [Memory.erase]
    by_cases hx : x = a
    · rw [if_pos hx, ih, Memory.read_cons]
      by_cases hy : y = x
      · rw [if_pos hy, if_pos hy]
      · rw [if_neg hy, if_neg hy, if_neg (by omega)]
    · rw [if_neg hx, Memory.read_cons, Memory.read_cons, ih]
      by_cases hy : y = a
      · rw [if_pos hy, if_neg (by omega), if_pos hy]
      · rw [if_neg hy, if_neg hy]

theorem Memory.read_insert (m : Memory) (x y : Nat) (v : Byte) (hm : m.read x = Config.bufReset ∨ y ≠ x)
    (hl : y = x → ∀ c ∈ m, c.1 ≠ x) :
    (m.insert x v).read y = if y = x then v else m.read y := by
  induction m with
  | nil => simp [Memory.insert, Memory.read_cons]
  | cons c m ih =>
    obtain ⟨a, u⟩ := c
    simp only [Memory.insert]
    split
    · rfl
    · rw [Memory.read_cons, Memory.read_cons]
      by_cases hy : y = x
      · subst hy
        have hne : a ≠ y := hl rfl (a, u) (by simp)
        have hl' : y = y → ∀ c ∈ m, c.1 ≠ y := fun _ c hc => hl rfl c (by simp [hc])
        rw [if_neg (by omega), ih _ hl']
        · simp
        · rcases hm with hm | hm
          · rw [Memory.read_cons, if_neg (by omega)] at hm
            exact .inl hm
          · exact absurd rfl hm
      · by_cases hya : y = a
        · rw [if_pos hya, if_neg hy, if_pos hya]
        · rw [if_neg hya, ih (.inr hy) (fun h => absurd h hy), if_neg hy, if_neg hy, if_neg hya]

theorem Memory.mem_erase {m : Memory} {x : Nat} {c : Host.Cell} (h : c ∈ m.erase x) : c ∈ m ∧ c.1 ≠ x := by
  induction m with
  | nil => simp [Memory.erase] at h
  | cons d m ih =>
    obtain ⟨a, v⟩ := d
    simp only [Memory.erase] at h
    split at h
    · exact ⟨List.mem_cons_of_mem _ (ih h).1, (ih h).2⟩
    · rcases List.mem_cons.mp h with rfl | h
      · exact ⟨by simp, by simp; omega⟩
      · exact ⟨List.mem_cons_of_mem _ (ih h).1, (ih h).2⟩

theorem Memory.mem_insert {m : Memory} {x : Nat} {v : Byte} {c : Host.Cell} (h : c ∈ m.insert x v) :
    c = (x, v) ∨ c ∈ m := by
  induction m with
  | nil => simpa [Memory.insert] using h
  | cons d m ih =>
    obtain ⟨a, u⟩ := d
    simp only [Memory.insert] at h
    split at h
    · simpa using h
    · rcases List.mem_cons.mp h with rfl | h
      · exact .inr (by simp)
      · rcases ih h with h | h
        · exact .inl h
        · exact .inr (by simp [h])

/-- A read after a write: the byte stored at the stored offset, the old byte at every other. -/
@[simp] theorem Memory.read_write (m : Memory) (x y : Nat) (v : Byte) :
    (m.write x v).read y = if y = x then v else m.read y := by
  unfold Memory.write
  split
  · next h => rw [Memory.read_erase, h]
  · rw [Memory.read_insert, Memory.read_erase]
    · split <;> rfl
    · left; rw [Memory.read_erase, if_pos rfl]
    · intro _ c hc
      exact (Memory.mem_erase hc).2

/-- The listed offsets after a write: the stored one and the old ones. -/
theorem Memory.mem_write {m : Memory} {x : Nat} {v : Byte} {c : Host.Cell} (h : c ∈ m.write x v) :
    c.1 = x ∨ c ∈ m := by
  unfold Memory.write at h
  split at h
  · exact .inr (Memory.mem_erase h).1
  · rcases Memory.mem_insert h with rfl | h
    · exact .inl rfl
    · exact .inr (Memory.mem_erase h).1

theorem Memory.wfFrom_cons (lo a : Nat) (v : Byte) (m : Memory) :
    Memory.wfFrom lo ((a, v) :: m) = true ↔ lo ≤ a ∧ v ≠ Config.bufReset ∧ Memory.wfFrom (a + 1) m = true := by
  simp [Memory.wfFrom, and_assoc]

theorem Memory.wfFrom_mono {lo lo' : Nat} {m : Memory} (h : lo' ≤ lo) (hm : Memory.wfFrom lo m = true) :
    Memory.wfFrom lo' m = true := by
  cases m with
  | nil => rfl
  | cons c m =>
    obtain ⟨a, v⟩ := c
    rw [Memory.wfFrom_cons] at hm ⊢
    exact ⟨by omega, hm.2⟩

theorem Memory.wfFrom_erase {lo : Nat} {m : Memory} (x : Nat) (hm : Memory.wfFrom lo m = true) :
    Memory.wfFrom lo (m.erase x) = true := by
  induction m generalizing lo with
  | nil => rfl
  | cons c m ih =>
    obtain ⟨a, v⟩ := c
    rw [Memory.wfFrom_cons] at hm
    simp only [Memory.erase]
    split
    · exact Memory.wfFrom_mono (by omega) (ih hm.2.2)
    · rw [Memory.wfFrom_cons]
      exact ⟨hm.1, hm.2.1, ih hm.2.2⟩

theorem Memory.wfFrom_insert {lo x : Nat} {v : Byte} {m : Memory} (hx : lo ≤ x) (hv : v ≠ Config.bufReset)
    (hl : ∀ c ∈ m, c.1 ≠ x) (hm : Memory.wfFrom lo m = true) : Memory.wfFrom lo (m.insert x v) = true := by
  induction m generalizing lo with
  | nil => simp [Memory.insert, Memory.wfFrom, hx, hv]
  | cons c m ih =>
    obtain ⟨a, u⟩ := c
    have hne : a ≠ x := hl (a, u) (by simp)
    rw [Memory.wfFrom_cons] at hm
    simp only [Memory.insert]
    split
    · rw [Memory.wfFrom_cons, Memory.wfFrom_cons]
      exact ⟨hx, hv, by omega, hm.2⟩
    · rw [Memory.wfFrom_cons]
      exact ⟨hm.1, hm.2.1, ih (by omega) (fun c hc => hl c (by simp [hc])) hm.2.2⟩

/-- A write keeps the canonical form. -/
theorem Memory.wf_write {m : Memory} (x : Nat) (v : Byte) (hm : m.wf = true) : (m.write x v).wf = true := by
  unfold Memory.write
  split
  · exact Memory.wfFrom_erase x hm
  · next h => exact Memory.wfFrom_insert (Nat.zero_le x) h (fun c hc => (Memory.mem_erase hc).2) (Memory.wfFrom_erase x hm)

theorem Memory.read_eq_reset {lo x : Nat} {m : Memory} (hm : Memory.wfFrom lo m = true) (hx : x < lo) :
    m.read x = Config.bufReset := by
  induction m generalizing lo with
  | nil => rfl
  | cons c m ih =>
    obtain ⟨a, v⟩ := c
    rw [Memory.wfFrom_cons] at hm
    rw [Memory.read_cons, if_neg (by omega)]
    exact ih hm.2.2 (by omega)

/-- Two buffers in canonical form that read alike are the same data. -/
theorem Memory.eq_of_read {m n : Memory} (hm : m.wf = true) (hn : n.wf = true) (h : ∀ x, m.read x = n.read x) :
    m = n := by
  suffices H : ∀ (m n : Memory) (lo : Nat), Memory.wfFrom lo m = true → Memory.wfFrom lo n = true →
      (∀ x, m.read x = n.read x) → m = n from H m n 0 hm hn h
  intro m
  induction m with
  | nil =>
    intro n lo _ hn h
    cases n with
    | nil => rfl
    | cons c n =>
      obtain ⟨a, v⟩ := c
      rw [Memory.wfFrom_cons] at hn
      have := h a
      simp [Memory.read_cons] at this
      exact absurd this.symm hn.2.1
  | cons c m ih =>
    obtain ⟨a, v⟩ := c
    intro n lo hm hn h
    rw [Memory.wfFrom_cons] at hm
    cases n with
    | nil =>
      have := h a
      simp [Memory.read_cons] at this
      exact absurd this hm.2.1
    | cons d n =>
      obtain ⟨b, w⟩ := d
      rw [Memory.wfFrom_cons] at hn
      rcases Nat.lt_trichotomy a b with hab | hab | hab
      · have := h a
        rw [Memory.read_cons, Memory.read_cons, if_pos rfl, if_neg (by omega),
          Memory.read_eq_reset hn.2.2 (by omega)] at this
        exact absurd this hm.2.1
      · subst hab
        have hv : v = w := by simpa [Memory.read_cons] using h a
        subst hv
        have : m = n := by
          refine ih n (a + 1) hm.2.2 hn.2.2 fun x => ?_
          by_cases hx : x = a
          · rw [Memory.read_eq_reset hm.2.2 (by omega), Memory.read_eq_reset hn.2.2 (by omega)]
          · have := h x
            rwa [Memory.read_cons, Memory.read_cons, if_neg hx, if_neg hx] at this
        rw [this]
      · have := h b
        rw [Memory.read_cons, Memory.read_cons, if_pos rfl, if_neg (by omega),
          Memory.read_eq_reset hm.2.2 (by omega)] at this
        exact absurd this.symm hn.2.1

/-! ### Slices -/

@[simp] theorem Memory.slice_zero (m : Memory) (a : Nat) : m.slice a 0 = [] := rfl

theorem Memory.slice_succ (m : Memory) (a n : Nat) : m.slice a (n + 1) = m.read a :: m.slice (a + 1) n := rfl

@[simp] theorem Memory.length_slice (m : Memory) (a n : Nat) : (m.slice a n).length = n := by
  induction n generalizing a with
  | zero => rfl
  | succ n ih => rw [Memory.slice_succ, List.length_cons, ih]

/-- Buffers that read alike on a range have the same slice there. -/
theorem Memory.slice_congr {m m' : Memory} {a n : Nat} (h : ∀ x, a ≤ x → x < a + n → m'.read x = m.read x) :
    m'.slice a n = m.slice a n := by
  induction n generalizing a with
  | zero => rfl
  | succ n ih =>
    rw [Memory.slice_succ, Memory.slice_succ, h a (by omega) (by omega),
      ih fun x h1 h2 => h x (by omega) (by omega)]

/-- A write outside a slice leaves it. -/
theorem Memory.slice_write (m : Memory) (a n x : Nat) (v : Byte) (h : x < a ∨ a + n ≤ x) :
    (m.write x v).slice a n = m.slice a n :=
  Memory.slice_congr fun y _ _ => by rw [Memory.read_write, if_neg (by omega)]

/-- A slice is the first part followed by the second. -/
theorem Memory.slice_append (m : Memory) (a k n : Nat) : m.slice a (k + n) = m.slice a k ++ m.slice (a + k) n := by
  induction k generalizing a with
  | zero => simp
  | succ k ih =>
    rw [show k + 1 + n = (k + n) + 1 by omega, Memory.slice_succ, Memory.slice_succ, ih,
      show a + 1 + k = a + (k + 1) by omega]
    rfl

/-- The slice one byte longer ends in the next byte. -/
theorem Memory.slice_snoc (m : Memory) (a n : Nat) : m.slice a (n + 1) = m.slice a n ++ [m.read (a + n)] :=
  Memory.slice_append m a n 1

end Sys2Proof.Machine
end

