-- ==== Sys2Proof/Laws/Ops.lean ====
section
/-! SUPPORT. One lemma per shared operation: everything it can do when it answers a next state. -/

namespace Sys2Proof.Machine

/-! ### Sequencing -/

@[simp] theorem andThen_next (s : State) (f : State → Result) : andThen (.next s) f = f s := rfl

theorem andThen_eq_next {o : Result} {f : State → Result} {t : State} (h : andThen o f = .next t) :
    ∃ u, o = .next u ∧ f u = .next t := by
  cases o with
  | next u => exact ⟨u, rfl, h⟩
  | fault r => cases h
  | refused r => cases h

/-! ### The input byte and the store -/

theorem takeInput_some {s : State} {b : Byte} (h : s.byteIn = some b) (f : Byte → State → Result) :
    takeInput s f = f b { s with byteIn := none } := by
  simp [takeInput, h]

theorem takeInput_none {s : State} (h : s.byteIn = none) (f : Byte → State → Result) :
    takeInput s f = .refused .noInputByte := by
  simp [takeInput, h]

theorem takeInput_eq_next {s t : State} {f : Byte → State → Result} (h : takeInput s f = .next t) :
    ∃ b, s.byteIn = some b ∧ f b { s with byteIn := none } = .next t := by
  cases hb : s.byteIn with
  | none => rw [takeInput_none hb] at h; cases h
  | some b => exact ⟨b, rfl, by rwa [takeInput_some hb] at h⟩

theorem storeByte_of_lt {a : Nat} {b : Byte} {s : State} {k : State → Result} (h : a < s.cfg.cap) :
    storeByte a b s k = k { s with buf := s.buf.write a b } := by
  simp [storeByte, h]

theorem storeByte_eq_next {a : Nat} {b : Byte} {s t : State} {k : State → Result} (h : storeByte a b s k = .next t) :
    a < s.cfg.cap ∧ k { s with buf := s.buf.write a b } = .next t := by
  unfold storeByte at h
  split at h
  · exact ⟨‹_›, h⟩
  · cases h

/-! ### The byte operations' shared forms -/

theorem accumulate_eq_next {w : Nat} {fin : State → State} {s t : State} (h : accumulate w fin s = .next t) :
    ∃ b, s.byteIn = some b ∧ s.byteIndex.toNat + s.subIndex.toNat < s.cfg.cap ∧
      t = if (s.subIndex + 1#3).toNat = w then
          fin { s with
            byteIn := none
            buf := s.buf.write (s.byteIndex.toNat + s.subIndex.toNat) b
            subIndex := s.subIndex + 1#3 }
        else
          { s with
            byteIn := none
            buf := s.buf.write (s.byteIndex.toNat + s.subIndex.toNat) b
            subIndex := s.subIndex + 1#3 } := by
  obtain ⟨b, hb, h⟩ := takeInput_eq_next h
  obtain ⟨hlt, h⟩ := storeByte_eq_next h
  exact ⟨b, hb, hlt, (Host.Outcome.next.inj h).symm⟩

theorem copyPayload_eq_next {n : State → Nat} {s t : State} (h : copyPayload n s = .next t) :
    ∃ b, s.byteIn = some b ∧ s.byteIndex.toNat < s.cfg.cap ∧
      t = { s with
        byteIn := none
        buf := s.buf.write s.byteIndex.toNat b
        byteIndex := s.byteIndex + 1#9
        stage :=
          if (s.byteIndex + 1#9).toNat =
              s.cfg.hdrLen + n { s with byteIn := none, buf := s.buf.write s.byteIndex.toNat b } then .trailer
          else s.stage } := by
  obtain ⟨b, hb, h⟩ := takeInput_eq_next h
  obtain ⟨hlt, h⟩ := storeByte_eq_next h
  exact ⟨b, hb, hlt, (Host.Outcome.next.inj h).symm⟩

/-! ### What each byte operation does when it answers a next state -/

theorem execSync_eq_next {c : Byte} {s t : State} (h : execSync c s = .next t) :
    ∃ b, s.byteIn = some b ∧
      ((b = c ∧ s.byteIndex.toNat < s.cfg.cap ∧
          t = { s with
            byteIn := none
            buf := s.buf.write s.byteIndex.toNat b
            byteIndex := s.byteIndex + 1#9
            stage := if (s.byteIndex + 1#9).toNat = s.cfg.syncLen then .header else s.stage }) ∨
        (b ≠ c ∧ t = { s with byteIn := none }.raise .syncMismatch)) := by
  obtain ⟨b, hb, h⟩ := takeInput_eq_next h
  refine ⟨b, hb, ?_⟩
  split at h
  · next hbc =>
    obtain ⟨hlt, h⟩ := storeByte_eq_next h
    exact .inl ⟨hbc, hlt, (Host.Outcome.next.inj h).symm⟩
  · next hbc => exact .inr ⟨hbc, (Host.Outcome.next.inj h).symm⟩

theorem execCver_eq_next {c : Byte} {s t : State} (h : execCver c s = .next t) :
    ∃ b, s.byteIn = some b ∧
      ((b = c ∧ s.byteIndex.toNat < s.cfg.cap ∧
          t = { s with byteIn := none, buf := s.buf.write s.byteIndex.toNat b }.advance 1) ∨
        (b ≠ c ∧ t = { s with byteIn := none }.raise .headerFieldInvalid)) := by
  obtain ⟨b, hb, h⟩ := takeInput_eq_next h
  refine ⟨b, hb, ?_⟩
  split at h
  · next hbc =>
    obtain ⟨hlt, h⟩ := storeByte_eq_next h
    exact .inl ⟨hbc, hlt, (Host.Outcome.next.inj h).symm⟩
  · next hbc => exact .inr ⟨hbc, (Host.Outcome.next.inj h).symm⟩

theorem execPass_eq_next {s t : State} (h : execPass s = .next t) :
    ∃ b, s.byteIn = some b ∧ s.byteIndex.toNat < s.cfg.cap ∧
      t = { s with byteIn := none, buf := s.buf.write s.byteIndex.toNat b }.advance 1 := by
  obtain ⟨b, hb, h⟩ := takeInput_eq_next h
  obtain ⟨hlt, h⟩ := storeByte_eq_next h
  exact ⟨b, hb, hlt, (Host.Outcome.next.inj h).symm⟩

theorem execSkip_eq_next {s t : State} (h : execSkip s = .next t) :
    ∃ b, s.byteIn = some b ∧
      t = if (s.subIndex + 1#3).toNat = 2 then
          { s with byteIn := none, subIndex := s.subIndex + 1#3 }.advance 2
        else { s with byteIn := none, subIndex := s.subIndex + 1#3 } := by
  obtain ⟨b, hb, h⟩ := takeInput_eq_next h
  exact ⟨b, hb, (Host.Outcome.next.inj h).symm⟩

theorem execTsum_eq_next {s t : State} (h : execTsum s = .next t) :
    ∃ b, s.byteIn = some b ∧ s.byteIndex.toNat < s.cfg.cap ∧
      ((sum8 (s.buf.slice 0 s.byteIndex.toNat) = b ∧
          t = { s with
            byteIn := none
            buf := s.buf.write s.byteIndex.toNat b
            calcCheck := b.setWidth 32
            rxCheck := b.setWidth 32
            checkOk := true
            length := s.byteIndex + 1#9
            ready := true
            stage := .sync
            byteIndex := 0#9
            subIndex := 0#3 }) ∨
        (sum8 (s.buf.slice 0 s.byteIndex.toNat) ≠ b ∧
          t = { s with
            byteIn := none
            buf := s.buf.write s.byteIndex.toNat b
            calcCheck := (sum8 (s.buf.slice 0 s.byteIndex.toNat)).setWidth 32
            rxCheck := b.setWidth 32
            checkOk := false
            stage := .sync
            byteIndex := 0#9
            subIndex := 0#3
            event := .checksumMismatch })) := by
  obtain ⟨b, hb, h⟩ := takeInput_eq_next h
  obtain ⟨hlt, h⟩ := storeByte_eq_next h
  refine ⟨b, hb, hlt, ?_⟩
  dsimp only at h
  split at h
  · next he =>
    refine .inl ⟨he, ?_⟩
    rw [he] at h
    exact (Host.Outcome.next.inj h).symm
  · next he => exact .inr ⟨he, (Host.Outcome.next.inj h).symm⟩

theorem execTcrc_eq_next {s t : State} (h : execTcrc s = .next t) :
    ∃ b, s.byteIn = some b ∧ s.byteIndex.toNat + s.subIndex.toNat < s.cfg.cap ∧
      t = if (s.subIndex + 1#3).toNat = 4 then
          finishCrc { s with
            byteIn := none
            buf := s.buf.write (s.byteIndex.toNat + s.subIndex.toNat) b
            subIndex := s.subIndex + 1#3 }
        else
          { s with
            byteIn := none
            buf := s.buf.write (s.byteIndex.toNat + s.subIndex.toNat) b
            subIndex := s.subIndex + 1#3 } := by
  obtain ⟨b, hb, h⟩ := takeInput_eq_next h
  obtain ⟨hlt, h⟩ := storeByte_eq_next h
  exact ⟨b, hb, hlt, (Host.Outcome.next.inj h).symm⟩

theorem finishLength_cases (s : State) :
    finishLength s = (s.writeField .messageLength (s.leAt s.byteIndex.toNat 2)).raise .headerFieldInvalid ∨
      finishLength s = (s.writeField .messageLength (s.leAt s.byteIndex.toNat 2)).advance 2 := by
  unfold finishLength
  dsimp only
  split
  · exact .inl rfl
  · exact .inr rfl

/-! ### The whole byte operation, the STEP and the read attempt -/

/-- What every byte operation leaves, whatever it does: parameters, acquisition registers, waiting words; its byte is taken. -/
structure TookByte (s t : State) : Prop where
  cfg : t.cfg = s.cfg
  byteIn : t.byteIn = none
  budget : t.budget = s.budget
  attempts : t.attempts = s.attempts
  acqResult : t.acqResult = s.acqResult
  commands : t.commands = s.commands
  source : t.source = s.source
  freeReads : t.freeReads = s.freeReads

theorem accumulate_tookByte {w : Nat} {fin : State → State} {s t : State} (h : accumulate w fin s = .next t)
    (hf : ∀ u : State, u.byteIn = none → TookByte u (fin u)) : TookByte s t := by
  obtain ⟨b, -, -, rfl⟩ := accumulate_eq_next h
  split
  · have H := hf { s with
      byteIn := none
      buf := s.buf.write (s.byteIndex.toNat + s.subIndex.toNat) b
      subIndex := s.subIndex + 1#3 } rfl
    exact ⟨H.cfg, H.byteIn, H.budget, H.attempts, H.acqResult, H.commands, H.source, H.freeReads⟩
  · exact ⟨rfl, rfl, rfl, rfl, rfl, rfl, rfl, rfl⟩

/-- Every byte operation's common frame. -/
theorem runByteOp_tookByte {op : ByteOp} {s t : State} (h : runByteOp op s = .next t) : TookByte s t := by
  cases op with
  | sync c =>
    obtain ⟨b, -, ⟨-, -, rfl⟩ | ⟨-, rfl⟩⟩ := execSync_eq_next h <;> exact ⟨rfl, rfl, rfl, rfl, rfl, rfl, rfl, rfl⟩
  | cver c =>
    obtain ⟨b, -, ⟨-, -, rfl⟩ | ⟨-, rfl⟩⟩ := execCver_eq_next h <;> exact ⟨rfl, rfl, rfl, rfl, rfl, rfl, rfl, rfl⟩
  | pass =>
    obtain ⟨b, -, -, rfl⟩ := execPass_eq_next h
    exact ⟨rfl, rfl, rfl, rfl, rfl, rfl, rfl, rfl⟩
  | acc16 d =>
    simp only [runByteOp, execAcc16] at h
    refine accumulate_tookByte h fun u hu => ?_
    constructor <;> simp [hu]
  | acc32 d =>
    simp only [runByteOp, execAcc32] at h
    refine accumulate_tookByte h fun u hu => ?_
    constructor <;> simp [hu]
  | acclen =>
    refine accumulate_tookByte h fun u hu => ?_
    rcases finishLength_cases u with h | h <;> rw [h] <;> constructor <;> simp [hu]
  | skip =>
    obtain ⟨b, -, rfl⟩ := execSkip_eq_next h
    split <;> exact ⟨rfl, rfl, rfl, rfl, rfl, rfl, rfl, rfl⟩
  | payf n =>
    obtain ⟨b, -, -, rfl⟩ := copyPayload_eq_next h
    exact ⟨rfl, rfl, rfl, rfl, rfl, rfl, rfl, rfl⟩
  | payv =>
    obtain ⟨b, -, -, rfl⟩ := copyPayload_eq_next h
    exact ⟨rfl, rfl, rfl, rfl, rfl, rfl, rfl, rfl⟩
  | tsum =>
    obtain ⟨b, -, -, ⟨-, rfl⟩ | ⟨-, rfl⟩⟩ := execTsum_eq_next h <;> exact ⟨rfl, rfl, rfl, rfl, rfl, rfl, rfl, rfl⟩
  | tcrc =>
    obtain ⟨b, -, -, rfl⟩ := execTcrc_eq_next h
    split <;> exact ⟨rfl, rfl, rfl, rfl, rfl, rfl, rfl, rfl⟩

/-- A STEP is its selected byte operation on the byte, `ready` and `event` cleared first. -/
theorem stepByte_of_selectOp {b : Byte} {s : State} {op : ByteOp} (h : s.selectOp = .ok op) :
    stepByte b s = runByteOp op { s.clearFlags with byteIn := some b } := by
  have h' : State.selectOp { s.clearFlags with byteIn := some b } = .ok op := h
  unfold stepByte
  dsimp only
  rw [h']

theorem stepByte_eq_next {b : Byte} {s t : State} (h : stepByte b s = .next t) :
    ∃ op, s.selectOp = .ok op ∧ runByteOp op { s.clearFlags with byteIn := some b } = .next t := by
  cases ho : s.selectOp with
  | error r =>
    have h' : State.selectOp { s.clearFlags with byteIn := some b } = .error r := ho
    unfold stepByte at h
    dsimp only at h
    rw [h'] at h
    cases h
  | ok op => exact ⟨op, rfl, by rwa [stepByte_of_selectOp ho] at h⟩

theorem stepByte_tookByte {b : Byte} {s t : State} (h : stepByte b s = .next t) : TookByte s t := by
  obtain ⟨op, -, h⟩ := stepByte_eq_next h
  have H := runByteOp_tookByte h
  exact ⟨H.cfg, H.byteIn, H.budget, H.attempts, H.acqResult, H.commands, H.source, H.freeReads⟩

/-- A read attempt needs an ACQUIRE in progress; it is one of three things. -/
theorem readAttempt_eq_next {a : ReadAnswer} {s t : State} (h : readAttempt a s = .next t) :
    s.byteIn = none ∧ ∃ n, s.budget = some n ∧
      ((a = .error ∧ t = { s with attempts := s.attempts + 1#16 }.endAcquire .transportError) ∨
        (a = .timeout ∧
          t = if s.cfg.timeoutFatal then { s with attempts := s.attempts + 1#16 }.endAcquire .transportError
            else { s with attempts := s.attempts + 1#16 }.testBudget n) ∨
        ∃ b u, a = .byte b ∧ stepByte b { s with attempts := s.attempts + 1#16 } = .next u ∧
          t = if u.ready then u.endAcquire .frame else u.testBudget n) := by
  unfold readAttempt at h
  split at h
  · cases h
  · next hb =>
    refine ⟨by simpa using hb, ?_⟩
    split at h
    · cases h
    · next n hn =>
      refine ⟨n, hn, ?_⟩
      dsimp only at h
      cases a with
      | error => exact .inl ⟨rfl, (Host.Outcome.next.inj h).symm⟩
      | timeout => exact .inr (.inl ⟨rfl, (Host.Outcome.next.inj h).symm⟩)
      | byte b =>
        obtain ⟨u, hu, h⟩ := andThen_eq_next h
        exact .inr (.inr ⟨b, u, rfl, hu, (Host.Outcome.next.inj h).symm⟩)

/-- ACQUIRE's loop keeps whatever every read attempt keeps. -/
theorem acquireLoop_induct {P : State → Prop}
    (hattempt : ∀ a s t, P s → readAttempt a s = .next t → P t)
    (hsource : ∀ s ws, P s → P { s with source := ws }) :
    ∀ (ws : List RdWord) (s t : State), P s → acquireLoop ws s = .next t → P t := by
  intro ws
  induction ws with
  | nil =>
    intro s t hs h
    cases h
    exact hsource s [] hs
  | cons w ws ih =>
    intro s t hs h
    simp only [acquireLoop] at h
    split at h
    · cases h
      exact hsource s _ hs
    · split at h
      · cases h
      · next a _ =>
        obtain ⟨u, hu, h⟩ := andThen_eq_next h
        exact ih u t (hattempt a _ u (hsource s ws hs) hu) h

end Sys2Proof.Machine
end

