-- ==== Sys2Proof/Laws/PerInstr.lean ====
section
/-! SUPPORT. Per-instruction families: the encoding of every instruction fits its row of the opcode table. -/

namespace Sys2Proof.Laws.TableRow

/-- The instruction's word, masked as its row of spec/opcode_table.json says, is the row's match. -/
def Statement (i : Instr) : Prop := (encode i).fitsRow i.row = true

theorem sync (c : Byte) : Statement (.sync c) := by
  unfold Statement; revert c; decide

theorem cver (c : Byte) : Statement (.cver c) := by
  unfold Statement; revert c; decide

theorem pass : Statement .pass := rfl

theorem acc16 (d : Dest) : Statement (.acc16 d) := by
  cases d <;> rfl

theorem acc32 (d : Dest) : Statement (.acc32 d) := by
  cases d <;> rfl

theorem acclen : Statement .acclen := rfl

theorem skip : Statement .skip := rfl

theorem payf (n : Byte) : Statement (.payf n) := by
  unfold Statement; revert n; decide

theorem payv : Statement .payv := rfl

theorem tsum : Statement .tsum := rfl

theorem tcrc : Statement .tcrc := rfl

theorem step (b : Byte) : Statement (.step b) := by
  unfold Statement; revert b; decide

theorem acquire (n : Half) : Statement (.acquire n) := by
  have h : cmdWord 2#2 n &&& 0x30000#18 = 0x20000#18 := by
    apply BitVec.eq_of_getLsbD_eq
    intro i hi
    simp only [cmdWord, BitVec.getLsbD_and, BitVec.getLsbD_append]
    by_cases h16 : i < 16
    · have h0 : (0x30000#18).getLsbD i = false := by interval_cases i <;> rfl
      have h1 : (0x20000#18).getLsbD i = false := by interval_cases i <;> rfl
      simp [h0, h1]
    · interval_cases i <;> simp at h16 ⊢
  simp [Statement, encode, Instr.row, IfaceWord.fitsRow, h]

theorem reset : Statement .reset := rfl

theorem rdByte (b : Byte) : Statement (.rdByte b) := by
  unfold Statement; revert b; decide

theorem rdTimeout : Statement .rdTimeout := rfl

theorem rdError : Statement .rdError := rfl

end Sys2Proof.Laws.TableRow
end

