-- ==== Sys2Proof/Tests/Slice0.lean ====
section
/-! SUPPORT. Tests whose expected results come from the spec's vectors (spec/95_test_vectors.md, named V-…), and one
witness or more for the hypotheses of every obligation that has hypotheses. -/

namespace Sys2Proof.Tests

open Sys2Proof Sys2Proof.Machine

/-! ### Helpers -/

/-- An IMU instance after reset, but for its cursor. -/
def imuAt (st : Stage) (i j : Nat) : State :=
  (State.resetOf Config.imu).setCursor st (BitVec.ofNat 9 i) (BitVec.ofNat 3 j)

/-- A GPS instance after reset, but for its cursor. -/
def gpsAt (st : Stage) (i j : Nat) : State :=
  (State.resetOf Config.gps).setCursor st (BitVec.ofNat 9 i) (BitVec.ofNat 3 j)

/-- The state with an accepted input byte. -/
def loaded (b : Byte) (s : State) : State := { s with byteIn := some b }

/-- The buffer with bytes stored from an offset on. -/
def fill : Nat → List Byte → Memory → Memory
  | _, [], m => m
  | a, b :: bs, m => fill (a + 1) bs (m.write a b)

/-- The state with bytes stored in its buffer from an offset on. -/
def holding (a : Nat) (bs : List Byte) (s : State) : State := { s with buf := fill a bs s.buf }

/-- The outcome is a next state with the property. -/
def nextIs (o : Result) (p : State → Bool) : Bool :=
  match o with
  | .next t => p t
  | .fault _ => false
  | .refused _ => false

/-- V-IMU-1's payload. -/
def imuPayload : List Byte := (List.range 30).map fun i => BitVec.ofNat 8 (i + 1)

/-- V-GPS-1's 32 body bytes. -/
def gpsBody : List Byte :=
  [0xAA#8, 0x44#8, 0x12#8, 0x1C#8, 0x2A#8, 0x00#8, 0x00#8, 0x20#8, 0x04#8, 0x00#8, 0x01#8, 0x00#8, 0x5A#8, 0xB4#8,
    0x50#8, 0x08#8] ++
  [0x78#8, 0x56#8, 0x34#8, 0x12#8, 0x20#8, 0x00#8, 0x00#8, 0x00#8, 0x00#8, 0x00#8, 0x2C#8, 0x0D#8, 0xDE#8, 0xAD#8,
    0xBE#8, 0xEF#8]

/-- The state before V-TSUM-1. -/
def beforeTsum : State := holding 0 (imuHead ++ imuPayload) (imuAt .trailer 37 0)

/-- The state before the last trailer byte of V-GPS-1a, `tail` the three bytes before it. -/
def beforeTcrc (tail : List Byte) : State :=
  { holding 0 (gpsBody ++ tail) (gpsAt .trailer 32 3) with messageLength := 4#16 }

/-- `State.Inv` as a computation. -/
def invCheck (s : State) : Bool :=
  decide s.cfg.Legal && s.buf.wf && s.buf.all (fun c => c.1 < s.cfg.cap) && s.cursorOk &&
    (s.cfg.proto == .imu || !s.lengthKnown || s.lengthAdmitted) && s.length.toNat ≤ s.cfg.cap &&
    (s.byteIn.isNone || (!s.ready && s.event == .none && s.budget.isNone)) &&
    (match s.budget with
      | none => true
      | some n => s.attempts.toNat < n.toNat && !s.ready) &&
    (!s.ready || (s.stage == .sync && s.byteIndex == 0#9 && s.subIndex == 0#3))

theorem inv_of_check {s : State} (h : invCheck s = true) : s.Inv := by
  simp only [invCheck, Bool.and_eq_true, decide_eq_true_eq, List.all_eq_true, Bool.or_eq_true,
    beq_iff_eq, Bool.not_eq_true'] at h
  obtain ⟨⟨⟨⟨⟨⟨⟨⟨h1, h2⟩, h3⟩, h4⟩, h5⟩, h6⟩, h7⟩, h8⟩, h9⟩ := h
  refine ⟨h1, h2, h3, h4, fun hp hk => ?_, h6, fun hb => ?_, fun n hn => ?_, fun hr => ?_⟩
  · simpa [hp, hk] using h5
  · cases hv : s.byteIn with
    | none => simp [hv] at hb
    | some b => simpa [hv, and_assoc] using h7
  · simpa [hn] using h8
  · simpa [hr, and_assoc] using h9

/-! ### WellFormed -/

theorem test_wf_refuses_acc16_of_a_32_bit_register : (Instr.acc16 .timeMs).wf = false := by decide
theorem test_wf_refuses_acc16_of_status : (Instr.acc16 .status).wf = false := by decide
theorem test_wf_refuses_acc32_of_a_16_bit_register : (Instr.acc32 .messageId).wf = false := by decide
theorem test_wf_refuses_acc32_of_swVersion : (Instr.acc32 .swVersion).wf = false := by decide
theorem test_wf_admits_acc16_and_acc32 : (Instr.acc16 .swVersion).wf = true ∧ (Instr.acc32 .status).wf = true := by decide

/-! ### Decode: every constructor, its word written out from R81, R83 and R88 -/

theorem test_decode_sync : decode (.descriptor 0b0000_001_0_0000_0000_10101010#24) = .ok (.sync 0xAA#8) := by decide
theorem test_decode_cver : decode (.descriptor 0b0001_001_0_0000_0000_00011100#24) = .ok (.cver 0x1C#8) := by decide
theorem test_decode_pass : decode (.descriptor 0b0010_001_0_0000_0000_00000000#24) = .ok .pass := by decide
theorem test_decode_acc16 : decode (.descriptor 0b0011_010_0_0111_0000_00000000#24) = .ok (.acc16 .swVersion) := by decide
theorem test_decode_acc32 : decode (.descriptor 0b0011_100_0_0101_0000_00000000#24) = .ok (.acc32 .timeMs) := by decide
theorem test_decode_acclen : decode (.descriptor 0b0100_010_1_0010_0000_00000000#24) = .ok .acclen := by decide
theorem test_decode_skip : decode (.descriptor 0b0101_010_0_0000_0000_00000000#24) = .ok .skip := by decide
theorem test_decode_payf : decode (.descriptor 0b0110_001_0_0000_0000_00011110#24) = .ok (.payf 30#8) := by decide
theorem test_decode_payv : decode (.descriptor 0b0111_001_0_0010_0000_00000000#24) = .ok .payv := by decide
theorem test_decode_tsum : decode (.descriptor 0b1000_001_0_0000_0000_00000000#24) = .ok .tsum := by decide
theorem test_decode_tcrc : decode (.descriptor 0b1001_100_0_0000_0000_00000000#24) = .ok .tcrc := by decide
theorem test_decode_step : decode (.command 0b01_00000000_10101010#18) = .ok (.step 0xAA#8) := by decide
theorem test_decode_acquire : decode (.command 0b10_0000001111101000#18) = .ok (.acquire 1000#16) := by decide
theorem test_decode_reset : decode (.command 0b11_0000000000000000#18) = .ok .reset := by decide
theorem test_decode_rdByte : decode (.outcome 0b00_00011100#10) = .ok (.rdByte 0x1C#8) := by decide
theorem test_decode_rdTimeout : decode (.outcome 0b01_00000000#10) = .ok .rdTimeout := by decide
theorem test_decode_rdError : decode (.outcome 0b10_00000000#10) = .ok .rdError := by decide

/-- V-ENC-13 and neighbours: each reserved form is rejected under its own name. -/
theorem test_decode_refuses :
    decode (.descriptor 0xA20000#24) = .error .reservedKind ∧ decode (.descriptor 0x360000#24) = .error .reservedWidth ∧
    decode (.descriptor 0x220100#24) = .error .reservedBits ∧ decode (.descriptor 0x348000#24) = .error .badDest ∧
    decode (.descriptor 0x345000#24) = .error .badDest ∧ decode (.descriptor 0x440000#24) = .error .strayField ∧
    decode (.command 0x00000#18) = .error .noCommand ∧ decode (.command 0x101AA#18) = .error .strayArgument ∧
    decode (.command 0x30001#18) = .error .strayArgument ∧ decode (.outcome 0x300#10) = .error .reservedOutcome ∧
    decode (.outcome 0x101#10) = .error .strayData ∧ decode (.outcome 0x201#10) = .error .strayData := by decide

/-- V-ENC-11, V-ENC-12, in the table's numbering: commands are three bytes wide, read outcomes two. -/
theorem test_decodeTableWord :
    decodeTableWord 24 0x9800_00 = some .tcrc ∧ decodeTableWord 24 0x100AA = some (.step 0xAA#8) ∧
    decodeTableWord 24 0x203E8 = some (.acquire 1000#16) ∧ decodeTableWord 24 0x30000 = some .reset ∧
    decodeTableWord 16 0x01C = some (.rdByte 0x1C#8) ∧ decodeTableWord 16 0x200 = some .rdError ∧
    decodeTableWord 24 0xA20000 = none := by decide

/-! ### The checksum engine -/

theorem test_sum8 :
    sum8 [] = 0x00#8 ∧ sum8 imuHead = 0x35#8 ∧ sum8 [0xFF#8, 0xFF#8] = 0xFE#8 ∧ sum8 (imuHead ++ imuPayload) = 0x06#8 := by
  decide

theorem test_le :
    le [0x34#8, 0x12#8] = 0x1234 ∧ le [0x78#8, 0x56#8, 0x34#8, 0x12#8] = 0x12345678 ∧ le [0xD4#8, 0x01#8] = 468 := by decide

theorem test_bswap32 : bswap32 0x2DFD2D88#32 = 0x882DFD2D#32 ∧ bswap32 0xA389EFA5#32 = 0xA5EF89A3#32 := by decide

theorem test_crcTab : crcTab Config.gps.poly 8#8 = 0x0EDB8832#32 ∧ crcTab Config.gps.poly 127#8 = 0xC0BA6CAD#32 ∧
    crcTab Config.gps.poly 255#8 = 0x2D02EF8D#32 := by decide

theorem test_crcUpdate :
    crcUpdate Config.gps.poly 0#32 0xAA#8 = 0x36034AF6#32 ∧ crcUpdate Config.gps.poly 0x36034AF6#32 0x44#8 = 0x2559D1EA#32 := by
  decide

/-- V-CRC-1, V-CRC-5, V-CRC-7. -/
theorem test_crc32 :
    crc32 Config.gps [0x31#8, 0x32#8, 0x33#8, 0x34#8, 0x35#8, 0x36#8, 0x37#8, 0x38#8, 0x39#8] = 0x2DFD2D88#32 ∧
    crc32 Config.gps [0x00#8, 0x00#8, 0x00#8, 0x01#8] = 0x77073096#32 ∧
    crc32 Config.gps [0xFF#8, 0xFF#8, 0xFF#8, 0xFF#8] = 0xDEBB20E3#32 := by decide

/-! ### Memory and reset -/

/-- Storing `BUF_RESET` takes the listing out again. -/
theorem test_write_keeps_the_form : (fill 3 [0x00#8, 0x05#8] (fill 2 [0x01#8, 0x02#8] [])) = [(2, 0x01#8), (4, 0x05#8)] := by
  decide

/-- R39's table for a GPS instance. -/
theorem test_reset_values :
    State.reset.cur = (.sync, 0, 0) ∧ State.reset.hostRead 499 = some 0x00#8 ∧ State.reset.hostRead 500 = none ∧
    State.reset.ready = false ∧ State.reset.event.code = 0#3 ∧ State.reset.acqResult.code = 3#2 ∧
    State.reset.cfg.nBudget = 1000#16 := by decide

/-- The IMU parameters of R8; its capacity bounds the host's reads. -/
theorem test_imu_parameters :
    (imuAt .sync 0 0).hostRead 37 = some 0x00#8 ∧ (imuAt .sync 0 0).hostRead 38 = none ∧
    (imuAt .sync 0 0).cfg.nBudget = 100#16 ∧ Config.imu.maxLen = Config.imu.payFixed ∧ Config.imu.payFixed = 30 ∧
    Config.imu.syncSeq = [0xFF#8, 0xFF#8, 0xFF#8, 0xFF#8] := by decide

/-- The GPS parameters of R8. -/
theorem test_gps_parameters :
    Config.gps.syncSeq = [0xAA#8, 0x44#8, 0x12#8] ∧ Config.gps.maxLen = 468 ∧ Config.gps.poly = 0xEDB88320#32 ∧
    Config.gps.crcSeed = 0#32 := by decide

/-! ### Single steps (spec/95_test_vectors.md section 4) -/

/-- V-SYNC-2. -/
theorem test_sync_match :
    nextIs (exec (.step 0x12#8) (gpsAt .sync 2 0)) (fun t => t.cur == (.header, 3, 0) && t.buf.read 2 == 0x12#8) = true := by
  decide

/-- V-SYNC-8. -/
theorem test_sync_mismatch :
    nextIs (exec (.step 0x00#8) { gpsAt .sync 0 0 with ready := true, length := 36#9, checkOk := true })
      (fun t => t.cur == resync && !t.ready && t.event == .syncMismatch && t.length == 36#9 && t.checkOk) = true := by decide

/-- V-CVER-7. -/
theorem test_cver_match :
    nextIs (exec (.step 0x14#8) (imuAt .header 6 0)) (fun t => t.cur == (.payload, 7, 0) && t.buf.read 6 == 0x14#8) = true := by
  decide

/-- V-CVER-8. -/
theorem test_cver_mismatch :
    nextIs (exec (.step 0xFF#8) (imuAt .header 4 0)) (fun t => t.cur == resync && t.event == .headerFieldInvalid && t.buf == []) = true := by
  decide

/-- V-PASS-4. -/
theorem test_pass :
    nextIs (exec (.step 0xB4#8) (gpsAt .header 13 0)) (fun t => t.cur == (.header, 14, 0) && t.buf == [(13, 0xB4#8)]) = true := by
  decide

/-- V-ACC-1. -/
theorem test_acc16_first :
    nextIs (exec (.step 0x2A#8) { gpsAt .header 4 0 with messageId := 7#16 })
      (fun t => t.cur == (.header, 4, 1) && t.buf.read 4 == 0x2A#8 && t.messageId == 7#16) = true := by decide

/-- V-ACC-8's second byte. -/
theorem test_acc16_last :
    nextIs (exec (.step 0x0D#8) (holding 26 [0x2C#8] (gpsAt .header 26 1)))
      (fun t => t.cur == (.payload, 28, 0) && t.swVersion == 3372#16) = true := by decide

/-- V-ACC-5's third byte. -/
theorem test_acc32_third :
    nextIs (exec (.step 0x34#8) (holding 16 [0x78#8, 0x56#8] (gpsAt .header 16 2)))
      (fun t => t.cur == (.header, 16, 3) && t.timeMs == 0#32) = true := by decide

/-- V-ACC-5's fourth byte. -/
theorem test_acc32_last :
    nextIs (exec (.step 0x12#8) (holding 16 [0x78#8, 0x56#8, 0x34#8] (gpsAt .header 16 3)))
      (fun t => t.cur == (.header, 20, 0) && t.timeMs == 0x12345678#32) = true := by decide

/-- V-LEN-4. -/
theorem test_acclen_largest :
    nextIs (exec (.step 0x01#8) (holding 8 [0xD4#8] (gpsAt .header 8 1)))
      (fun t => t.cur == (.header, 10, 0) && t.messageLength == 468#16 && t.event == .none) = true := by decide

/-- V-LEN-5. -/
theorem test_acclen_too_large :
    nextIs (exec (.step 0x01#8) (holding 8 [0xD5#8] (gpsAt .header 8 1)))
      (fun t => t.cur == resync && t.messageLength == 469#16 && t.event == .headerFieldInvalid) = true := by decide

/-- V-SKIP-1. -/
theorem test_skip_first :
    nextIs (exec (.step 0x11#8) (gpsAt .header 24 0)) (fun t => t.cur == (.header, 24, 1) && t.buf == []) = true := by decide

/-- V-SKIP-2. -/
theorem test_skip_last :
    nextIs (exec (.step 0x22#8) (gpsAt .header 24 1)) (fun t => t.cur == (.header, 26, 0) && t.buf == []) = true := by decide

/-- V-PAY-2. -/
theorem test_payf_goes_on :
    nextIs (exec (.step 0x1D#8) (imuAt .payload 35 0)) (fun t => t.cur == (.payload, 36, 0) && t.buf.read 35 == 0x1D#8) = true := by
  decide

/-- V-PAY-3. -/
theorem test_payf_ends :
    nextIs (exec (.step 0x1E#8) (imuAt .payload 36 0)) (fun t => t.cur == (.trailer, 37, 0) && t.buf.read 36 == 0x1E#8) = true := by
  decide

/-- V-PAY-5. -/
theorem test_payv_shortest :
    nextIs (exec (.step 0x7E#8) { gpsAt .payload 28 0 with messageLength := 1#16 })
      (fun t => t.cur == (.trailer, 29, 0) && t.buf == [(28, 0x7E#8)]) = true := by decide

/-- V-PAY-8. -/
theorem test_payv_longest :
    nextIs (exec (.step 0xC8#8) { gpsAt .payload 495 0 with messageLength := 468#16 })
      (fun t => t.cur == (.trailer, 496, 0) && t.buf == [(495, 0xC8#8)]) = true := by decide

/-- V-TSUM-1. -/
theorem test_tsum_accept :
    nextIs (exec (.step 0x06#8) beforeTsum)
      (fun t => t.cur == resync && t.ready && t.checkOk && t.length == 38#9 && t.event == .none && t.buf.read 37 == 0x06#8 &&
        t.rxCheck == 6#32 && t.calcCheck == 6#32) = true := by decide

/-- V-TSUM-3. -/
theorem test_tsum_reject :
    nextIs (exec (.step 0x86#8) { beforeTsum with length := 9#9, checkOk := true })
      (fun t => t.cur == resync && !t.ready && !t.checkOk && t.length == 9#9 && t.event == .checksumMismatch &&
        t.buf.read 37 == 0x86#8 && t.rxCheck == 0x86#32 && t.calcCheck == 6#32) = true := by decide

set_option maxRecDepth 8192 in
/-- V-TCRC-2. -/
theorem test_tcrc_match :
    nextIs (exec (.step 0xA5#8) (beforeTcrc [0xA3#8, 0x89#8, 0xEF#8]))
      (fun t => t.cur == resync && t.ready && t.checkOk && t.length == 36#9 && t.event == .none &&
        t.rxCheck == 0xA5EF89A3#32 && t.calcCheck == 0xA389EFA5#32) = true := by decide

set_option maxRecDepth 8192 in
/-- V-TCRC-3. -/
theorem test_tcrc_mismatch :
    nextIs (exec (.step 0xA3#8) (beforeTcrc [0xA5#8, 0xEF#8, 0x89#8]))
      (fun t => t.cur == resync && t.ready && !t.checkOk && t.length == 36#9 && t.event == .crcMismatch &&
        t.rxCheck == 0xA389EFA5#32) = true := by decide

/-- V-RESET-1: a frame abandoned inside `timeMs`, without an event. -/
theorem test_reset :
    nextIs (exec .reset { holding 0 (gpsBody.take 18) (gpsAt .header 16 2) with messageId := 42#16, timeWeek := 2128#16 })
      (fun t => t == State.resetOf Config.gps) = true := by decide

/-- V-ACQ-4: nothing is read. -/
theorem test_acquire_zero :
    nextIs (exec (.acquire 0#16) { imuAt .header 5 0 with source := [0x0FF#10] })
      (fun t => t.acqResult == .noFrame && t.attempts == 0#16 && t.cur == (.header, 5, 0) && t.source == [0x0FF#10]) = true := by
  decide

/-- V-ACQ-3's second call: `FRAME` at the first attempt. -/
theorem test_acquire_frame :
    nextIs (exec (.acquire 63#16) { beforeTsum with source := [0x006#10, 0x055#10] })
      (fun t => t.acqResult == .frame && t.attempts == 1#16 && t.length == 38#9 && t.checkOk && t.source == [0x055#10]) = true := by
  decide

/-- V-ACQ-2: the frame completed by the last budgeted byte wins over the budget. -/
theorem test_rdByte_frame_at_last_attempt :
    nextIs (exec (.rdByte 0x06#8) { beforeTsum with budget := some 38#16, attempts := 37#16 })
      (fun t => t.acqResult == .frame && t.attempts == 38#16 && t.budget == none) = true := by decide

/-- V-ACQ-5's last attempt. -/
theorem test_rdByte_last_attempt :
    nextIs (exec (.rdByte 0x00#8) { imuAt .sync 0 0 with budget := some 100#16, attempts := 99#16 })
      (fun t => t.acqResult == .noFrame && t.attempts == 100#16 && t.event == .syncMismatch && t.cur == resync) = true := by
  decide

/-- V-ACQ-7: a timeout is counted and the call goes on. -/
theorem test_rdTimeout_goes_on :
    nextIs (exec .rdTimeout { imuAt .header 5 0 with budget := some 100#16, attempts := 5#16 })
      (fun t => t.attempts == 6#16 && t.budget == some 100#16 && t.cur == (.header, 5, 0) && t.acqResult == .idle) = true := by
  decide

/-- V-ACQ-7f. -/
theorem test_rdTimeout_fatal :
    nextIs (exec .rdTimeout { imuAt .header 5 0 with
        cfg := { Config.imu with timeoutFatal := true }, budget := some 100#16, attempts := 5#16 })
      (fun t => t.attempts == 6#16 && t.acqResult == .transportError && t.cur == (.header, 5, 0) && !t.ready) = true := by
  decide

/-- V-ACQ-15. -/
theorem test_rdError :
    nextIs (exec .rdError { gpsAt .sync 0 0 with budget := some 1000#16 })
      (fun t => t == { gpsAt .sync 0 0 with attempts := 1#16, acqResult := .transportError }) = true := by decide

/-! ### The machine's step from reset -/

/-- Each of the three interfaces: a placed word is what the next step runs. -/
theorem test_step_runs_the_placed_word :
    nextIs (step (State.reset.withFetchWord 24 0x0200AA)) (fun t => t.event == .syncMismatch) = true ∧
    nextIs (step (State.reset.withFetchWord 24 0x220000)) (fun t => t.cur == (.sync, 1, 0)) = true ∧
    nextIs (step (State.reset.withFetchWord 24 0x100AA)) (fun t => t.cur == (.sync, 1, 0) && t.event == .none) = true ∧
    nextIs (step (State.reset.withFetchWord 24 0x203E8)) (fun t => t.budget == some 1000#16) = true ∧
    nextIs (step (State.reset.withFetchWord 16 0x200)) (fun t => t.acqResult == .transportError && t.attempts == 1#16) = true := by
  decide

/-- With nothing on its interfaces the machine stays in its reset state. -/
theorem test_step_idles_after_reset : step State.reset = .next State.reset := rfl

/-! ### Witnesses: states and operands that meet each obligation's hypotheses, at the boundaries of its clauses -/

theorem witness_DecodeOfEncodeIsTheInstruction :
    (Instr.acc32 .status).wf = true ∧ (Instr.acc16 .none).wf = true ∧ (Instr.acquire 0xFFFF#16).wf = true ∧
    (Instr.sync 0xFF#8).wf = true := by decide

theorem witness_AcceptedWordIsItsInstructionsEncoding :
    decode (.descriptor 0x386000#24) = .ok (.acc32 .status) ∧ decode (.command 0x2FFFF#18) = .ok (.acquire 0xFFFF#16) ∧
    decode (.outcome 0x0FF#10) = .ok (.rdByte 0xFF#8) := by decide

theorem witness_ReservedWordsAreRejected :
    10 ≤ (descKind 0xA20000#24).toNat ∧ 10 ≤ (descKind 0xF20000#24).toNat ∧
    (descWidth 0x360000#24 ≠ 1#3 ∧ descWidth 0x360000#24 ≠ 2#3 ∧ descWidth 0x360000#24 ≠ 4#3) ∧
    (descWidth 0x200000#24 ≠ 1#3 ∧ descWidth 0x200000#24 ≠ 2#3 ∧ descWidth 0x200000#24 ≠ 4#3) ∧
    descReserved 0x220100#24 ≠ 0#4 ∧ 8 ≤ (descDest 0x348000#24).toNat ∧ 8 ≤ (descDest 0x34F000#24).toNat ∧
    (0x0FFFF#18).extractLsb' 16 2 = 0#2 ∧ (0x300#10).extractLsb' 8 2 = 3#2 := by decide

theorem witness_StepRunsTheDecodedInstruction_byte_operation :
    (loaded 0xAA#8 (gpsAt .sync 0 0)).byteIn.isSome = true ∧
    (loaded 0xAA#8 (gpsAt .sync 0 0)).entryWord = some 0x0200AA#24 ∧
    decode (.descriptor 0x0200AA#24) = .ok (.sync 0xAA#8) := by decide

theorem witness_StepRunsTheDecodedInstruction_read_outcome :
    let s : State := { gpsAt .sync 0 0 with budget := some 1#16, source := [0x200#10] }
    s.byteIn = none ∧ s.budget.isSome = true ∧ s.source = 0x200#10 :: [] ∧ decode (.outcome 0x200#10) = .ok .rdError := by
  decide

theorem witness_StepRunsTheDecodedInstruction_free_answer :
    let s : State := { gpsAt .sync 0 0 with budget := some 1#16 }
    s.byteIn = none ∧ s.budget.isSome = true ∧ s.source = [] := by decide

theorem witness_StepRunsTheDecodedInstruction_command :
    let s : State := { gpsAt .sync 0 0 with commands := [0x30000#18, 0x00000#18] }
    s.busy = false ∧ s.commands = 0x30000#18 :: [0x00000#18] ∧ decode (.command 0x30000#18) = .ok .reset := by decide

theorem witness_StepRunsTheDecodedInstruction_no_command :
    let s : State := { gpsAt .sync 0 0 with commands := [0x0FFFF#18] }
    s.busy = false ∧ s.commands = 0x0FFFF#18 :: [] ∧ (0x0FFFF#18).extractLsb' 16 2 = 0#2 := by decide

theorem witness_StepRunsTheDecodedInstruction_idle : State.reset.busy = false ∧ State.reset.commands = [] := by decide

theorem witness_ImuDescriptorProgram :
    (imuAt .sync 3 0).cfg.Legal ∧ (imuAt .sync 3 0).cfg.proto = .imu ∧
    (imuAt .sync 3 0).stage = .sync ∧ (imuAt .sync 3 0).byteIndex.toNat < 4 ∧
    (imuAt .header 4 0).byteIndex.toNat = 4 ∧ (imuAt .header 5 0).byteIndex.toNat = 5 ∧
    (imuAt .header 6 0).byteIndex.toNat = 6 ∧ (imuAt .header 6 0).stage = .header ∧
    (imuAt .payload 7 0).stage = .payload ∧ (imuAt .trailer 37 0).stage = .trailer := by decide

theorem witness_GpsDescriptorProgram :
    (gpsAt .sync 0 0).cfg.Legal ∧ (gpsAt .sync 0 0).cfg.proto = .gps ∧ (gpsAt .sync 0 0).stage = .sync ∧
    (gpsAt .sync 0 0).byteIndex.toNat = 0 ∧ (gpsAt .sync 1 0).byteIndex.toNat = 1 ∧ (gpsAt .sync 2 0).byteIndex.toNat = 2 ∧
    (gpsAt .header 3 0).stage = .header ∧ (gpsAt .payload 28 0).stage = .payload ∧ (gpsAt .trailer 32 0).stage = .trailer := by
  decide

theorem witness_GpsDescriptorProgram_header :
    ∀ i ∈ [3, 4, 6, 7, 8, 10, 12, 13, 14, 16, 20, 24, 26],
      (gpsAt .header i 0).stage = .header ∧ (gpsAt .header i 0).byteIndex.toNat = i := by decide

theorem witness_SyncStoresOrResyncs_match :
    let s := loaded 0x12#8 (gpsAt .sync 2 0)
    s.cfg.Legal ∧ s.byteIn = some 0x12#8 ∧ s.stage = .sync ∧ s.byteIndex.toNat < s.cfg.syncLen ∧
    s.cfg.syncSeq[s.byteIndex.toNat]? = some 0x12#8 := by decide

theorem witness_SyncStoresOrResyncs_mismatch :
    let s := loaded 0x13#8 (gpsAt .sync 0 0)
    s.cfg.Legal ∧ s.byteIn = some 0x13#8 ∧ s.stage = .sync ∧ s.byteIndex.toNat < s.cfg.syncLen ∧
    0x13#8 ≠ 0xAA#8 := by decide

theorem witness_CverStoresOrResyncs_match :
    let s := loaded 0x14#8 (imuAt .header 6 0)
    s.cfg.Legal ∧ s.byteIn = some 0x14#8 ∧ s.stage = .header ∧ s.byteIndex.toNat < s.cfg.hdrLen := by decide

theorem witness_CverStoresOrResyncs_mismatch :
    let s := loaded 0x1D#8 (gpsAt .header 3 0)
    s.cfg.Legal ∧ s.byteIn = some 0x1D#8 ∧ s.stage = .header ∧ s.byteIndex.toNat < s.cfg.hdrLen ∧ 0x1D#8 ≠ 0x1C#8 := by decide

theorem witness_PassCopiesTheByte :
    ∀ i ∈ [6, 7, 12, 13],
      let s := loaded 0xB4#8 (gpsAt .header i 0)
      s.cfg.Legal ∧ s.byteIn = some 0xB4#8 ∧ s.stage = .header ∧ s.byteIndex.toNat < s.cfg.hdrLen ∧
        s.cfg.proto = .gps ∧ s.byteIndex.toNat ∈ [6, 7, 12, 13] := by decide

theorem witness_PassCopiesTheByte_imu :
    let s := loaded 0xB4#8 (imuAt .header 6 0)
    s.cfg.Legal ∧ s.byteIn = some 0xB4#8 ∧ s.stage = .header ∧ s.byteIndex.toNat < s.cfg.hdrLen ∧ s.cfg.proto = .imu := by
  decide

theorem witness_Acc16AssemblesTheField_first :
    ∀ i ∈ [4, 10, 14, 26],
      let s := loaded 0x2A#8 (gpsAt .header i 0)
      (Instr.acc16 .messageId).wf = true ∧ s.cfg.Legal ∧ s.byteIn = some 0x2A#8 ∧ s.stage = .header ∧
        s.byteIndex.toNat + 2 ≤ s.cfg.hdrLen ∧ s.subIndex.toNat < 2 ∧ s.cfg.proto = .gps ∧ s.byteIndex.toNat = i ∧
        s.subIndex.toNat = 0 := by decide

theorem witness_Acc16AssemblesTheField_last :
    let s := loaded 0x0D#8 (gpsAt .header 26 1)
    (Instr.acc16 .swVersion).wf = true ∧ s.cfg.Legal ∧ s.byteIn = some 0x0D#8 ∧ s.stage = .header ∧
    s.byteIndex.toNat + 2 ≤ s.cfg.hdrLen ∧ s.subIndex.toNat < 2 ∧ s.subIndex.toNat = 1 ∧ Dest.swVersion ≠ .none := by decide

theorem witness_Acc32AssemblesTheField_counted :
    ∀ i ∈ [16, 20],
      let s := loaded 0x34#8 (gpsAt .header i 2)
      (Instr.acc32 .timeMs).wf = true ∧ s.cfg.Legal ∧ s.byteIn = some 0x34#8 ∧ s.stage = .header ∧
        s.byteIndex.toNat + 4 ≤ s.cfg.hdrLen ∧ s.subIndex.toNat < 4 ∧ s.cfg.proto = .gps ∧ s.byteIndex.toNat = i ∧
        s.subIndex.toNat < 3 := by decide

theorem witness_Acc32AssemblesTheField_last :
    let s := loaded 0x12#8 (gpsAt .header 20 3)
    (Instr.acc32 .status).wf = true ∧ s.cfg.Legal ∧ s.byteIn = some 0x12#8 ∧ s.stage = .header ∧
    s.byteIndex.toNat + 4 ≤ s.cfg.hdrLen ∧ s.subIndex.toNat < 4 ∧ s.subIndex.toNat = 3 ∧ Dest.status ≠ .none := by decide

/-- Both of the bytes, and at the second the lengths 0, 1, 468 and 469. -/
theorem witness_AcclenAssemblesAndValidates :
    (let s := loaded 0x04#8 (gpsAt .header 8 0);
      s.cfg.Legal ∧ s.cfg.proto = .gps ∧ s.byteIn = some 0x04#8 ∧ s.stage = .header ∧ s.byteIndex.toNat = 8 ∧
        s.subIndex.toNat < 2 ∧ s.subIndex.toNat = 0) ∧
    ∀ x ∈ [(0x00#8, 0x00#8, 0), (0x01#8, 0x00#8, 1), (0xD4#8, 0x01#8, 468), (0xD5#8, 0x01#8, 469)],
      let s := loaded x.2.1 (holding 8 [x.1] (gpsAt .header 8 1))
      s.cfg.Legal ∧ s.cfg.proto = .gps ∧ s.byteIn = some x.2.1 ∧ s.stage = .header ∧ s.byteIndex.toNat = 8 ∧
        s.subIndex.toNat < 2 ∧ s.subIndex.toNat = 1 ∧ (s.buf.read 8).toNat + 256 * x.2.1.toNat = x.2.2 := by decide

theorem witness_SkipStoresNothing :
    ∀ j ∈ [0, 1],
      let s := loaded 0x11#8 (gpsAt .header 24 j)
      s.cfg.Legal ∧ s.byteIn = some 0x11#8 ∧ s.stage = .header ∧ s.byteIndex.toNat + 2 ≤ s.cfg.hdrLen ∧
        s.subIndex.toNat < 2 ∧ s.subIndex.toNat = j := by decide

theorem witness_PayfCopiesUntilItsCount :
    ∀ i ∈ [7, 36],
      let s := loaded 0x1E#8 (imuAt .payload i 0)
      s.cfg.Legal ∧ s.byteIn = some 0x1E#8 ∧ s.stage = .payload ∧ s.cfg.hdrLen ≤ s.byteIndex.toNat ∧
        s.byteIndex.toNat < s.cfg.cap ∧ s.cfg.proto = .imu := by decide

theorem witness_PayvCopiesUntilMessageLength :
    ∀ i ∈ [28, 495],
      let s := loaded 0xC8#8 { gpsAt .payload i 0 with messageLength := 468#16 }
      s.cfg.Legal ∧ s.byteIn = some 0xC8#8 ∧ s.stage = .payload ∧ s.cfg.hdrLen ≤ s.byteIndex.toNat ∧
        s.byteIndex.toNat < s.cfg.cap ∧ s.cfg.proto = .gps := by decide

theorem witness_TsumReportsOnlyAnEqualSum :
    ∀ b ∈ [0x06#8, 0x86#8],
      let s := loaded b beforeTsum
      s.cfg.Legal ∧ s.cfg.proto = .imu ∧ s.byteIn = some b ∧ s.stage = .trailer ∧ s.byteIndex.toNat = 37 := by decide

/-- The first and the last trailer byte, of the shortest and the longest payload. -/
theorem witness_TcrcReportsWithOrWithoutMatch :
    ∀ x ∈ [(29, 1, 0), (29, 1, 3), (496, 468, 0), (496, 468, 3)],
      let s := loaded 0xA5#8 { gpsAt .trailer x.1 x.2.2 with messageLength := BitVec.ofNat 16 x.2.1 }
      s.cfg.Legal ∧ s.cfg.proto = .gps ∧ s.byteIn = some 0xA5#8 ∧ s.stage = .trailer ∧
        s.byteIndex.toNat = 28 + s.messageLength.toNat ∧ s.messageLength.toNat ≤ 468 ∧ s.subIndex.toNat < 4 ∧
        s.subIndex.toNat = x.2.2 := by decide

theorem witness_StepPerformsTheSelectedOperation :
    (gpsAt .trailer 496 3).busy = false ∧ (gpsAt .trailer 496 3).selectOp = .ok .tcrc := by decide

theorem witness_ResetRestoresEveryRegister :
    (holding 0 [0xAA#8] { gpsAt .header 16 2 with messageId := 42#16, acqResult := .frame }).busy = false := by decide

theorem witness_ResetStateIsWhatResetLeaves :
    let s := holding 0 [0xAA#8] (gpsAt .sync 1 0)
    s.busy = false ∧ s.commands = [] ∧ s.source = [] ∧ s.freeReads = 0 := by decide

theorem witness_AcquireStarts :
    (gpsAt .header 16 2).busy = false ∧ 0 < (1#16).toNat ∧ (gpsAt .header 16 2).source = [] := by decide

/-- An answer for every attempt, and answers beyond the budget. -/
theorem witness_AcquireFeedsExactlyItsAnswers :
    let s : State := { imuAt .sync 0 0 with source := [0x0FF#10, 0x100#10, 0x200#10, 0x055#10] }
    s.Inv ∧ s.busy = false ∧
    s.source = [ReadAnswer.byte 0xFF#8, .timeout, .error].map ReadAnswer.word ++ [0x055#10] ∧ (3#16).toNat ≤ 3 :=
  ⟨inv_of_check (by decide), by decide, by decide, by decide⟩

/-- Fewer answers than attempts, and none after them. -/
theorem witness_AcquireFeedsExactlyItsAnswers_waiting :
    let s : State := { imuAt .sync 0 0 with source := [0x0FF#10] }
    s.Inv ∧ s.busy = false ∧ s.source = [ReadAnswer.byte 0xFF#8].map ReadAnswer.word ++ [] ∧
    ([] : List RdWord) = [] ∧ [ReadAnswer.byte 0xFF#8].length < (100#16).toNat :=
  ⟨inv_of_check (by decide), by decide, by decide, rfl, by decide⟩

/-- The last byte of a frame at the last attempt; the last attempt without a frame; an attempt before the last. -/
theorem witness_ReadByteFeedsOneStep :
    (State.Inv { beforeTsum with budget := some 38#16, attempts := 37#16 }) ∧
    (State.Inv { imuAt .sync 0 0 with budget := some 100#16, attempts := 99#16 }) ∧
    (State.Inv { imuAt .sync 0 0 with budget := some 100#16, attempts := 98#16 }) :=
  ⟨inv_of_check (by decide), inv_of_check (by decide), inv_of_check (by decide)⟩

theorem witness_ReadTimeoutOnlyCounts :
    ∀ x ∈ [(true, 5), (false, 5), (false, 99)],
      let s : State := { imuAt .header 5 0 with
        cfg := { Config.imu with timeoutFatal := x.1 }, budget := some 100#16, attempts := BitVec.ofNat 16 x.2 }
      s.byteIn = none ∧ s.budget = some 100#16 ∧ s.attempts.toNat < (100#16).toNat ∧ s.cfg.timeoutFatal = x.1 := by decide

theorem witness_ReadErrorEndsTheCall :
    let s : State := { gpsAt .header 16 2 with budget := some 1000#16 }
    s.byteIn = none ∧ s.budget = some 1000#16 := by decide

theorem witness_OverlapIsRefused :
    (State.busy { gpsAt .sync 0 0 with budget := some 1#16 }) = true ∧ (loaded 0xAA#8 (gpsAt .sync 0 0)).busy = true ∧
    (gpsAt .sync 0 0).busy = false := by decide

theorem witness_LittleEndianBytePositions : [0x78#8, 0x56#8, 0x34#8, 0x12#8][3]? = some 0x12#8 := by decide

theorem witness_SumIsAWrappingAccumulator : [0x01#8, 0xFF#8, 0x02#8].Perm [0x02#8, 0x01#8, 0xFF#8] := by decide

theorem witness_SingleByteChangeChangesTheSum :
    29 < imuPayload.length ∧ imuPayload[29]? ≠ some 0x1F#8 := by decide

theorem witness_CrcIsAFoldFromZero : Config.gps.Legal ∧ Config.gps.proto = .gps := by decide

theorem witness_ByteSwapReversesTheBytes : 0 < 4 ∧ 3 < 4 := by decide

/-- Every byte operation has an input byte it answers a next state on, SYNC and CVER with and without a match. -/
theorem witness_ByteOperationsStoreAtMostOneByte :
    ∀ op ∈ [ByteOp.sync 0xAA#8, .sync 0x12#8, .cver 0xAA#8, .cver 0x1C#8, .pass, .acc16 .messageId, .acc32 .status, .acclen,
        .skip, .payf 30#8, .payv, .tsum, .tcrc],
      (loaded 0xAA#8 (gpsAt .header 8 1)).byteIn = some 0xAA#8 ∧
      nextIs (exec op.toInstr (loaded 0xAA#8 (gpsAt .header 8 1))) (fun _ => true) = true := by decide

theorem witness_ByteOperationsStoreAtMostOneByte_step :
    nextIs (exec (.step 0xA5#8) (gpsAt .trailer 496 3)) (fun _ => true) = true ∧
    nextIs (exec (.step 0x13#8) (gpsAt .sync 2 0)) (fun _ => true) = true := by decide

theorem witness_NoOperationWritesTheDescriptor :
    (∃ t, exec .reset State.reset = .next t) ∧ ∃ t, step State.reset = .next t := ⟨⟨_, rfl⟩, ⟨_, rfl⟩⟩

/-- A SKIP; a TCRC before its fourth byte; a TSUM that changes `length`. -/
theorem witness_ResultsAreWrittenOnlyAtCompletion :
    (nextIs (exec .skip (loaded 0x11#8 (gpsAt .header 24 0))) (fun _ => true) = true ∧ ByteOp.skip ≠ .tsum ∧ ByteOp.skip ≠ .tcrc) ∧
    (nextIs (exec .tcrc (loaded 0x11#8 (gpsAt .trailer 32 2))) (fun _ => true) = true ∧
      ((gpsAt .trailer 32 2).subIndex + 1#3).toNat ≠ 4) ∧
    nextIs (exec .tsum (loaded 0x06#8 beforeTsum)) (fun t => t.length != beforeTsum.length) = true := by decide

/-- An ACC16 and another register; an ACCLEN and another register. -/
theorem witness_FieldsAreWrittenOnlyByTheirEntry :
    (nextIs (exec (.acc16 .messageId) (loaded 0x11#8 (gpsAt .header 4 1))) (fun t => t.messageId != 0#16) = true ∧
      ByteOp.acc16 .messageId ≠ .acc16 .status) ∧
    nextIs (exec .acclen (loaded 0x00#8 (holding 8 [0x04#8] (gpsAt .header 8 1)))) (fun t => t.messageLength == 4#16) = true ∧
      Dest.status ≠ .messageLength := by decide

/-- Each of the four conditions. -/
theorem witness_EveryConditionResyncs :
    nextIs (exec (.sync 0xAA#8) (loaded 0x00#8 (gpsAt .sync 0 0))) (fun t => t.event == .syncMismatch) = true ∧
    nextIs (exec .acclen (loaded 0x00#8 (gpsAt .header 8 1))) (fun t => t.event == .headerFieldInvalid) = true ∧
    nextIs (exec .tsum (loaded 0x07#8 beforeTsum)) (fun t => t.event == .checksumMismatch) = true ∧
    nextIs (exec .tcrc (loaded 0x01#8 (gpsAt .trailer 0 3))) (fun t => t.event == .crcMismatch) = true := by decide

theorem witness_SyncStageIgnoresHistory :
    let s := gpsAt .sync 0 0
    let s' := holding 0 gpsBody { gpsAt .sync 0 0 with messageId := 42#16, checkOk := true, event := .crcMismatch }
    s.cfg.Legal ∧ s'.cfg = s.cfg ∧ s.busy = false ∧ s'.busy = false ∧ s.cur = (.sync, 0, 0) ∧ s'.cur = (.sync, 0, 0) := by
  decide

/-- A state with the invariant in each stage, at the last position of it, and a step it takes. -/
theorem witness_EveryStepKeepsTheInvariant :
    (State.Inv { gpsAt .sync 2 0 with commands := [0x10012#18] }) ∧
    (State.Inv { gpsAt .header 26 1 with messageLength := 468#16, commands := [0x10012#18] }) ∧
    (State.Inv { gpsAt .payload 495 0 with messageLength := 468#16, commands := [0x10012#18] }) ∧
    (State.Inv { imuAt .trailer 37 0 with commands := [0x10012#18] }) ∧
    (nextIs (step { gpsAt .payload 495 0 with messageLength := 468#16, commands := [0x10012#18] })
      (fun t => t.cur == (.trailer, 496, 0)) = true) :=
  ⟨inv_of_check (by decide), inv_of_check (by decide), inv_of_check (by decide), inv_of_check (by decide), by decide⟩

theorem witness_LegalInstanceNeverFaults :
    let s : State := { gpsAt .trailer 496 3 with messageLength := 468#16, commands := [0x00000#18, 0x10012#18], source := [0x100#10] }
    s.Inv ∧ (∀ w ∈ s.commands, w.extractLsb' 16 2 = 0#2 ∨ ∃ i, decode (.command w) = .ok i) ∧
    ∀ w ∈ s.source, ∃ i, decode (.outcome w) = .ok i := by
  refine ⟨inv_of_check (by decide), fun w hw => ?_, fun w hw => ?_⟩
  · rcases List.mem_cons.1 hw with rfl | hw
    · exact .inl (by decide)
    · rw [List.mem_singleton.1 hw]
      exact .inr ⟨.step 0x12#8, by decide⟩
  · rw [List.mem_singleton.1 hw]
    exact ⟨.rdTimeout, by decide⟩

theorem witness_StepFollowsTheTransitionTable :
    ((gpsAt .sync 0 0).Inv ∧ (gpsAt .sync 0 0).busy = false) ∧ ((gpsAt .header 8 1).Inv ∧ (gpsAt .header 8 1).busy = false) ∧
    (imuAt .payload 36 0).Inv ∧ (imuAt .payload 36 0).busy = false :=
  ⟨⟨inv_of_check (by decide), by decide⟩, ⟨inv_of_check (by decide), by decide⟩, inv_of_check (by decide), by decide⟩

/-- A GPS state with a frame reported, and an IMU state about to report one. -/
theorem witness_ReadyMeansAReportedFrame :
    (let s : State := { gpsAt .sync 0 0 with ready := true, length := 33#9, messageLength := 1#16 };
      s.Inv ∧ s.Reports ∧ ∃ t, step s = .next t) ∧
    (let s : State := { beforeTsum with commands := [0x10006#18] };
      s.Inv ∧ s.Reports ∧ nextIs (step s) (fun t => t.ready) = true) :=
  ⟨⟨inv_of_check (by decide), fun _ => ⟨rfl, by decide, by decide⟩, ⟨_, rfl⟩⟩,
    ⟨inv_of_check (by decide), fun h => absurd h (by decide), by decide⟩⟩

/-- A GPS state in its trailer, all seven fields complete. -/
theorem witness_FieldRegistersAgreeWithTheBuffer :
    let s : State := { holding 0 gpsBody (gpsAt .trailer 32 0) with
      messageId := 42#16, messageLength := 4#16, sequenceNumber := 1#16, timeWeek := 2128#16, timeMs := 0x12345678#32,
      status := 32#32, swVersion := 3372#16, commands := [0x100A3#18] }
    s.Inv ∧ s.FieldsMatch ∧ s.pastOffset 28 ∧ nextIs (step s) (fun t => t.cur == (.trailer, 32, 1)) = true :=
  ⟨inv_of_check (by decide),
    fun _ => ⟨fun _ => by decide, fun _ => by decide, fun _ => by decide, fun _ => by decide, fun _ => by decide,
      fun _ => by decide, fun _ => by decide⟩,
    .inr (.inr (.inl rfl)), by decide⟩

theorem witness_SkippedCellsAreNeverWritten :
    (let s : State := { gpsAt .header 24 1 with messageLength := 1#16, commands := [0x10022#18] };
      s.Inv ∧ nextIs (step s) (fun t => t.cur == (.header, 26, 0)) = true ∧ s.SkippedCellsReset) ∧
    (let s : State := { imuAt .header 6 0 with commands := [0x10014#18] };
      s.Inv ∧ nextIs (step s) (fun t => t.cur == (.payload, 7, 0)) = true ∧ s.ImuFieldsZero) :=
  ⟨⟨inv_of_check (by decide), by decide, fun _ => by decide⟩,
    ⟨inv_of_check (by decide), by decide, fun _ d => by cases d <;> rfl⟩⟩

theorem witness_ImuFrameIsAcceptedByItsSum :
    (imuAt .sync 0 0).Inv ∧ (imuAt .sync 0 0).busy = false ∧ (imuAt .sync 0 0).cfg.proto = .imu ∧
    (imuAt .sync 0 0).cur = (.sync, 0, 0) ∧ imuPayload.length = 30 ∧ 0x06#8 = sum8 (imuHead ++ imuPayload) :=
  ⟨inv_of_check (by decide), by decide, by decide, by decide, by decide, by decide⟩

/-- V-GPS-1's header, with the shortest payload and with the longest. -/
theorem witness_GpsFrameIsReportedWithItsFields :
    ∀ n ∈ [1, 468],
      let h : GpsHeader := ⟨42#16, 0x00#8, 0x20#8, BitVec.ofNat 16 n, 1#16, 0x5A#8, 0xB4#8, 2128#16, 0x12345678#32, 32#32,
        0x11#8, 0x22#8, 3372#16⟩
      let p := List.replicate n 0x7E#8
      (gpsAt .sync 0 0).Inv ∧ (gpsAt .sync 0 0).busy = false ∧ (gpsAt .sync 0 0).cfg.proto = .gps ∧
      (gpsAt .sync 0 0).SkippedCellsReset ∧ (gpsAt .sync 0 0).cur = (.sync, 0, 0) ∧
      p.length = h.messageLength.toNat ∧ 1 ≤ p.length ∧ p.length ≤ 468 ∧ (bigEndian32 0xA389EFA5#32).length = 4 := by
  intro n hn
  refine ⟨inv_of_check (by decide), by decide, by decide, fun _ => by decide, by decide, ?_⟩
  simp only [List.mem_cons, List.not_mem_nil, or_false] at hn
  rcases hn with rfl | rfl <;> refine ⟨?_, ?_, ?_, rfl⟩ <;> rw [List.length_replicate] <;> decide

/-- V-GPS-1's header on the wire. -/
theorem test_gpsHeader_wire :
    GpsHeader.wire ⟨42#16, 0x00#8, 0x20#8, 4#16, 1#16, 0x5A#8, 0xB4#8, 2128#16, 0x12345678#32, 32#32, 0x00#8, 0x00#8, 3372#16⟩ =
      gpsBody.take 28 := by decide

end Sys2Proof.Tests
end

/-! The CRC as a fold (R143, R144). -/

namespace Sys2Proof.Machine

theorem crcFrom_append (poly c : Word) (xs ys : List Byte) :
    crcFrom poly c (xs ++ ys) = crcFrom poly (crcFrom poly c xs) ys := by
  induction xs generalizing c with
  | nil => rfl
  | cons x xs ih => exact ih (crcUpdate poly c x)

/-- The table index of an update is the register's low byte, exclusive-or the byte (R143). -/
theorem crcUpdate_eq (poly crc : Word) (b : Byte) :
    crcUpdate poly crc b = (crc >>> 8) ^^^ crcTab poly (crc.extractLsb' 0 8 ^^^ b) := by
  have hb : (b.setWidth 32).extractLsb' 0 8 = b := by
    ext i hi
    simp [show i < 32 by omega, BitVec.getLsbD_eq_getElem hi]
  rw [crcUpdate, BitVec.extractLsb'_xor, hb]

theorem crcUpdate_zero (poly : Word) (b : Byte) : crcUpdate poly 0#32 b = crcTab poly b := by
  simp [crcUpdate_eq]

theorem crcShifts_zero (poly : Word) (n : Nat) : crcShifts poly n 0#32 = 0#32 := by
  induction n with
  | zero => rfl
  | succ n ih => simpa [crcShifts, crcShift] using ih

theorem crcTab_zero (poly : Word) : crcTab poly 0#8 = 0#32 := crcShifts_zero poly 8

/-- Zero bytes leave a zero register at zero, so leading zeros are invisible to a CRC seeded at 0. -/
theorem crcFrom_zero_replicate (poly : Word) (n : Nat) : crcFrom poly 0#32 (List.replicate n 0#8) = 0#32 := by
  induction n with
  | zero => rfl
  | succ n ih =>
    rw [List.replicate_succ, crcFrom, crcUpdate_zero, crcTab_zero]
    exact ih

/-- A legal GPS configuration computes the fold of R144 from seed 0. -/
theorem crc32_eq_crcFrom {c : Config} (h : c.Legal) (hp : c.proto = .gps) (bs : List Byte) :
    crc32 c bs = crcFrom c.poly 0#32 bs := by
  obtain ⟨-, -, -, -, -, -, -, -, -, -, hseed⟩ := h.gps_fields hp
  rw [crc32, hseed]

/-- The check value of "123456789" for the `POLY` of R8. -/
theorem crcFrom_checkValue :
    crcFrom 0xEDB88320#32 0#32 [0x31#8, 0x32#8, 0x33#8, 0x34#8, 0x35#8, 0x36#8, 0x37#8, 0x38#8, 0x39#8] =
      0x2DFD2D88#32 := by decide

/-- Settles O31: the CRC is `crcUpdate` folded from 0; each clause is a law of that fold. -/
theorem crcIsAFoldFromZero : Obligations.CrcIsAFoldFromZero := by
  unfold Obligations.CrcIsAFoldFromZero
  intro c hc hp
  have hfold := crc32_eq_crcFrom hc hp
  obtain ⟨-, -, -, -, -, -, -, -, -, hpoly, -⟩ := hc.gps_fields hp
  refine ⟨?_, fun bs b => ?_, fun n bs => ?_, fun i => ?_, ?_⟩
  · rw [hfold]
    rfl
  · rw [hfold, hfold, crcFrom_append, ← crcUpdate_eq]
    rfl
  · rw [hfold, hfold, crcFrom_append, crcFrom_zero_replicate]
  · rw [hfold]
    exact crcUpdate_zero c.poly i
  · rw [hfold, hpoly]
    exact crcFrom_checkValue

end Sys2Proof.Machine

/-! The cursor's part of the invariant (R27 (a) to (d)): what the cursor selects in each stage, and that every byte
operation keeps it. -/

namespace Sys2Proof.Machine

/-! ### The descriptor tables of R86 and R87 -/

/-- The parameters of a format with a reading of `TIMEOUT_FATAL` (R8): the configurations that are legal. -/
def legalConfig (p : Proto) (timeoutFatal : Bool) : Config := { Config.ofProto p with timeoutFatal := timeoutFatal }

/-- What holds of both formats' parameters holds of every legal configuration. -/
theorem legal_forall {P : Config → Prop} (himu : ∀ b, P (legalConfig .imu b)) (hgps : ∀ b, P (legalConfig .gps b))
    {c : Config} (h : c.Legal) : P c := by
  rw [show c = legalConfig c.proto c.timeoutFatal from h]
  cases c.proto with
  | imu => exact himu c.timeoutFatal
  | gps => exact hgps c.timeoutFatal

/-- The byte operation of the table entry whose first offset is `i`. -/
def entryOp (es : List (Nat × DescWord)) (i : Nat) : Option ByteOp :=
  (lookupEntry es i).bind fun w => (decodeByteOp w).toOption

/-- In the Sync and Header stages `selectOp` is the table lookup at `byteIndex` (R85). -/
theorem selectOp_eq_ok_iff_entryOp {s : State} (hs : s.stage = .sync ∨ s.stage = .header) (op : ByteOp) :
    s.selectOp = .ok op ↔ entryOp s.cfg.entries s.byteIndex.toNat = some op := by
  have he : s.entryWord = lookupEntry s.cfg.entries s.byteIndex.toNat := by
    rcases hs with hs | hs <;> simp [State.entryWord, hs]
  rw [State.selectOp, he, entryOp]
  cases lookupEntry s.cfg.entries s.byteIndex.toNat with
  | none => simp
  | some w => cases hd : decodeByteOp w <;> simp [hd, Except.toOption]

/-- The payload operation of a format (R86, R87). -/
def payloadOp : Proto → ByteOp
  | .imu => .payf 30#8
  | .gps => .payv

/-- The trailer operation of a format (R86, R87). -/
def trailerOp : Proto → ByteOp
  | .imu => .tsum
  | .gps => .tcrc

theorem trailerOp_eq_tsum_iff {p : Proto} : trailerOp p = .tsum ↔ p = .imu := by
  cases p <;> simp [trailerOp]

theorem trailerOp_eq_tcrc_iff {p : Proto} : trailerOp p = .tcrc ↔ p = .gps := by
  cases p <;> simp [trailerOp]

theorem selectOp_of_payload {s : State} (hc : s.cfg.Legal) (hs : s.stage = .payload) :
    s.selectOp = .ok (payloadOp s.cfg.proto) := by
  have hd : decodeByteOp s.cfg.payload = .ok (payloadOp s.cfg.proto) :=
    legal_forall (P := fun c => decodeByteOp c.payload = .ok (payloadOp c.proto)) (by decide) (by decide) hc
  exact State.selectOp_of_entry (by simp [State.entryWord, hs]) hd

theorem selectOp_of_trailer {s : State} (hc : s.cfg.Legal) (hs : s.stage = .trailer) :
    s.selectOp = .ok (trailerOp s.cfg.proto) := by
  have hd : decodeByteOp s.cfg.trailer = .ok (trailerOp s.cfg.proto) :=
    legal_forall (P := fun c => decodeByteOp c.trailer = .ok (trailerOp c.proto)) (by decide) (by decide) hc
  exact State.selectOp_of_entry (by simp [State.entryWord, hs]) hd

/-- The Sync entries are SYNC operations of `SYNCSEQ`'s bytes. -/
theorem entryOp_sync {c : Config} (hc : c.Legal) :
    ∀ i < c.syncLen, entryOp c.entries i = c.syncSeq[i]?.map .sync :=
  legal_forall (P := fun c => ∀ i < c.syncLen, entryOp c.entries i = c.syncSeq[i]?.map .sync) (by decide) (by decide) hc

theorem entryOp_syncLen_isSome {c : Config} (hc : c.Legal) : (entryOp c.entries c.syncLen).isSome = true :=
  legal_forall (P := fun c => (entryOp c.entries c.syncLen).isSome = true) (by decide) (by decide) hc

/-- The byte operations of the Header stage (R110). -/
def isHeaderOp : ByteOp → Bool
  | .cver _ | .pass | .acc16 _ | .acc32 _ | .acclen | .skip => true
  | .sync _ | .payf _ | .payv | .tsum | .tcrc => false

/-- The Header entry at offset `i` is followed by another entry or by the payload, and is what makes `messageLength` known
(offset 10) only if it is ACCLEN; no other entry writes `messageLength`. -/
abbrev HeaderEntry (c : Config) (i : Nat) (op : ByteOp) : Prop :=
  isHeaderOp op = true ∧
    (i + opWidth op = c.hdrLen ∨ (i + opWidth op < c.hdrLen ∧ (entryOp c.entries (i + opWidth op)).isSome = true)) ∧
    (op = .acclen ∨ (op ≠ .acc16 .messageLength ∧ op ≠ .acc32 .messageLength ∧ (10 ≤ i + opWidth op → 10 ≤ i)))

/-- Every Header entry of R86 and R87 is such an entry. -/
theorem headerEntry_of_entryOp {c : Config} (hc : c.Legal) :
    ∀ i < c.hdrLen, c.syncLen ≤ i → ∀ op ∈ entryOp c.entries i, HeaderEntry c i op :=
  legal_forall (P := fun c => ∀ i < c.hdrLen, c.syncLen ≤ i → ∀ op ∈ entryOp c.entries i, HeaderEntry c i op)
    (Bool.forall_bool.2 ⟨by decide, by decide⟩) (Bool.forall_bool.2 ⟨by decide, by decide⟩) hc

/-! ### The cursor invariant -/

/-- The part of `State.Inv` that speaks of the cursor: it does not depend on the buffer, the flags or an ACQUIRE in progress. -/
structure CursorInv (s : State) : Prop where
  legal : s.cfg.Legal
  cursor : s.cursorOk = true
  lengthOk : s.cfg.proto = .gps → s.lengthKnown = true → s.lengthAdmitted = true

theorem inv_cursorInv {s : State} (h : s.Inv) : CursorInv s := ⟨h.legal, h.cursor, h.lengthOk⟩

/-- The cursor invariant reads only the parameters, the cursor and `messageLength`. -/
theorem CursorInv.congr {s t : State} (h : CursorInv s) (hc : t.cfg = s.cfg) (hs : t.stage = s.stage)
    (hi : t.byteIndex = s.byteIndex) (hj : t.subIndex = s.subIndex) (hm : t.messageLength = s.messageLength) :
    CursorInv t := by
  obtain ⟨hl, hcur, hlen⟩ := h
  have hin : t.inEntry = s.inEntry := by rw [State.inEntry, State.inEntry, State.selectOp_congr hc hs hi, hj]
  have hpay : t.payloadLen = s.payloadLen := by rw [State.payloadLen, State.payloadLen, hc, hm]
  refine ⟨hc ▸ hl, ?_, ?_⟩
  · rwa [State.cursorOk, hc, hs, hi, hj, hin, hpay]
  · rwa [State.lengthKnown, State.lengthAdmitted, hc, hs, hi, hm]

theorem inEntry_iff (s : State) : s.inEntry = true ↔ ∃ op, s.selectOp = .ok op ∧ s.subIndex.toNat < opWidth op := by
  unfold State.inEntry
  cases s.selectOp <;> simp

/-- A payload length in the known range: `L` is at least 1, and payload and trailer fit the capacity. -/
theorem payloadLen_bounds {s : State} (hc : s.cfg.Legal) (hl : s.cfg.proto = .gps → s.lengthAdmitted = true) :
    1 ≤ s.payloadLen ∧ s.cfg.hdrLen + s.payloadLen + s.cfg.trlLen ≤ 500 := by
  cases hp : s.cfg.proto with
  | imu =>
    obtain ⟨-, -, hhdr, htrl, -, -, -, -, -, hpay⟩ := hc.imu_fields hp
    simp [State.payloadLen, hp, hpay, hhdr, htrl]
  | gps =>
    obtain ⟨-, -, hhdr, htrl, hmax, -⟩ := hc.gps_fields hp
    have h := hl hp
    simp only [State.lengthAdmitted, hmax, Bool.and_eq_true, decide_eq_true_eq] at h
    simp only [State.payloadLen, hp]
    omega

/-- In the Sync stage the cursor invariant is R27 (a). -/
theorem cursorInv_of_sync {s : State} (hc : s.cfg.Legal) (hs : s.stage = .sync)
    (hi : s.byteIndex.toNat < s.cfg.syncLen) (hj : s.subIndex = 0#3) : CursorInv s :=
  ⟨hc, by simp [State.cursorOk, hs, hi, hj], by simp [State.lengthKnown, hs]⟩

/-- In the Header stage it says that the cursor is inside a table entry. -/
theorem cursorInv_of_header {s : State} {op : ByteOp} (hc : s.cfg.Legal) (hs : s.stage = .header)
    (hlo : s.cfg.syncLen ≤ s.byteIndex.toNat) (hhi : s.byteIndex.toNat < s.cfg.hdrLen)
    (ho : entryOp s.cfg.entries s.byteIndex.toNat = some op) (hj : s.subIndex.toNat < opWidth op)
    (hl : s.cfg.proto = .gps → 10 ≤ s.byteIndex.toNat → s.lengthAdmitted = true) : CursorInv s := by
  have hin : s.inEntry = true := (inEntry_iff s).2 ⟨op, (selectOp_eq_ok_iff_entryOp (.inr hs) op).2 ho, hj⟩
  exact ⟨hc, by simp [State.cursorOk, hs, hlo, hhi, hin], by simpa [State.lengthKnown, hs] using hl⟩

/-- In the Payload stage, R27 (c). -/
theorem cursorInv_of_payload {s : State} (hc : s.cfg.Legal) (hs : s.stage = .payload)
    (hlo : s.cfg.hdrLen ≤ s.byteIndex.toNat) (hhi : s.byteIndex.toNat < s.cfg.hdrLen + s.payloadLen)
    (hj : s.subIndex = 0#3) (hl : s.cfg.proto = .gps → s.lengthAdmitted = true) : CursorInv s :=
  ⟨hc, by simp [State.cursorOk, hs, hlo, hhi, hj], fun hp _ => hl hp⟩

/-- In the Trailer stage, R27 (d). -/
theorem cursorInv_of_trailer {s : State} (hc : s.cfg.Legal) (hs : s.stage = .trailer)
    (hi : s.byteIndex.toNat = s.cfg.hdrLen + s.payloadLen) (hj : s.subIndex.toNat < s.cfg.trlLen)
    (hl : s.cfg.proto = .gps → s.lengthAdmitted = true) : CursorInv s :=
  ⟨hc, by simp [State.cursorOk, hs, hi, hj], fun hp _ => hl hp⟩

/-- What the cursor invariant says in the Sync stage. -/
theorem CursorInv.sync {s : State} (h : CursorInv s) (hs : s.stage = .sync) :
    s.byteIndex.toNat < s.cfg.syncLen ∧ s.subIndex = 0#3 := by
  simpa [State.cursorOk, hs] using h.cursor

/-- What it says in the Payload stage. -/
theorem CursorInv.payload {s : State} (h : CursorInv s) (hs : s.stage = .payload) :
    s.cfg.hdrLen ≤ s.byteIndex.toNat ∧ s.byteIndex.toNat < s.cfg.hdrLen + s.payloadLen ∧ s.subIndex = 0#3 ∧
      (s.cfg.proto = .gps → s.lengthAdmitted = true) := by
  have hcur : (s.cfg.hdrLen ≤ s.byteIndex.toNat ∧ s.byteIndex.toNat < s.cfg.hdrLen + s.payloadLen) ∧ s.subIndex = 0#3 := by
    simpa [State.cursorOk, hs] using h.cursor
  obtain ⟨⟨hlo, hhi⟩, hj⟩ := hcur
  exact ⟨hlo, hhi, hj, fun hp => h.lengthOk hp (by simp [State.lengthKnown, hs])⟩

/-- What it says in the Trailer stage. -/
theorem CursorInv.trailer {s : State} (h : CursorInv s) (hs : s.stage = .trailer) :
    s.byteIndex.toNat = s.cfg.hdrLen + s.payloadLen ∧ s.subIndex.toNat < s.cfg.trlLen ∧
      (s.cfg.proto = .gps → s.lengthAdmitted = true) := by
  have hcur : s.byteIndex.toNat = s.cfg.hdrLen + s.payloadLen ∧ s.subIndex.toNat < s.cfg.trlLen := by
    simpa [State.cursorOk, hs] using h.cursor
  obtain ⟨hi, hj⟩ := hcur
  exact ⟨hi, hj, fun hp => h.lengthOk hp (by simp [State.lengthKnown, hs])⟩

/-- The cursor is in the Header entry of `op`, at whatever subindex: what an operation of that stage keeps until it advances. -/
structure AtEntry (op : ByteOp) (s : State) : Prop where
  legal : s.cfg.Legal
  stage : s.stage = .header
  lower : s.cfg.syncLen ≤ s.byteIndex.toNat
  upper : s.byteIndex.toNat < s.cfg.hdrLen
  entry : entryOp s.cfg.entries s.byteIndex.toNat = some op
  lengthOk : s.cfg.proto = .gps → 10 ≤ s.byteIndex.toNat → s.lengthAdmitted = true

theorem CursorInv.header {s : State} {op : ByteOp} (h : CursorInv s) (hs : s.stage = .header) (ho : s.selectOp = .ok op) :
    AtEntry op s ∧ s.subIndex.toNat < opWidth op := by
  have hcur : (s.cfg.syncLen ≤ s.byteIndex.toNat ∧ s.byteIndex.toNat < s.cfg.hdrLen) ∧ s.inEntry = true := by
    simpa [State.cursorOk, hs] using h.cursor
  obtain ⟨⟨hlo, hhi⟩, hin⟩ := hcur
  obtain ⟨op', ho', hj⟩ := (inEntry_iff s).1 hin
  obtain rfl : op' = op := by simpa [ho] using ho'.symm
  exact ⟨⟨h.legal, hs, hlo, hhi, (selectOp_eq_ok_iff_entryOp (.inr hs) op').1 ho,
    fun hp hi => h.lengthOk hp (by simpa [State.lengthKnown, hs] using hi)⟩, hj⟩

theorem AtEntry.headerEntry {op : ByteOp} {s : State} (h : AtEntry op s) : HeaderEntry s.cfg s.byteIndex.toNat op :=
  headerEntry_of_entryOp h.legal _ h.upper h.lower op h.entry

theorem AtEntry.congr {op : ByteOp} {s t : State} (h : AtEntry op s) (hc : t.cfg = s.cfg) (hs : t.stage = s.stage)
    (hi : t.byteIndex = s.byteIndex) (hm : t.messageLength = s.messageLength) : AtEntry op t := by
  have hadm : t.lengthAdmitted = s.lengthAdmitted := by rw [State.lengthAdmitted, State.lengthAdmitted, hc, hm]
  obtain ⟨h1, h2, h3, h4, h5, h6⟩ := h
  constructor <;> simpa only [hadm, hc, hs, hi]

/-- Inside an entry the cursor invariant holds. -/
theorem AtEntry.cursorInv {op : ByteOp} {s : State} (h : AtEntry op s) (hj : s.subIndex.toNat < opWidth op) : CursorInv s :=
  cursorInv_of_header h.legal h.stage h.lower h.upper h.entry hj h.lengthOk

theorem opWidth_bounds (op : ByteOp) : 1 ≤ opWidth op ∧ opWidth op ≤ 4 := by
  cases op <;> simp [opWidth]

/-- `advance` (R110, R117) goes to the next entry or to the Payload stage; where that makes `messageLength` known, it must be
admitted. -/
theorem AtEntry.advance {op : ByteOp} {s : State} (h : AtEntry op s)
    (hl : s.cfg.proto = .gps → 10 ≤ s.byteIndex.toNat + opWidth op → s.lengthAdmitted = true) :
    CursorInv (s.advance (opWidth op)) := by
  obtain ⟨-, hnext, -⟩ := h.headerEntry
  obtain ⟨-, -, hhdr, -, -⟩ := h.legal.bounds
  obtain ⟨-, hw⟩ := opWidth_bounds op
  have hup := h.upper
  have hlow := h.lower
  have hi : (s.advance (opWidth op)).byteIndex.toNat = s.byteIndex.toNat + opWidth op := by
    rw [State.advance_byteIndex, BitVec.toNat_add, BitVec.toNat_ofNat]
    omega
  have hst : (s.advance (opWidth op)).stage = if s.byteIndex.toNat + opWidth op = s.cfg.hdrLen then .payload else s.stage := by
    rw [← hi]
    rfl
  rcases hnext with hend | ⟨hlt, hsome⟩
  · rw [if_pos hend] at hst
    have hadm : s.cfg.proto = .gps → s.lengthAdmitted = true := fun hp =>
      hl hp (by obtain ⟨-, -, h28, -⟩ := h.legal.gps_fields hp; omega)
    obtain ⟨hpos, -⟩ := payloadLen_bounds h.legal hadm
    exact cursorInv_of_payload h.legal hst (by rw [hi]; exact hend.ge)
      (by rw [hi]; change _ < s.cfg.hdrLen + s.payloadLen; omega) rfl hadm
  · rw [if_neg hlt.ne, h.stage] at hst
    obtain ⟨op', ho'⟩ := Option.isSome_iff_exists.1 hsome
    obtain ⟨hw', -⟩ := opWidth_bounds op'
    exact cursorInv_of_header h.legal hst (by rw [hi]; exact hlow.trans (Nat.le_add_right _ _)) (by rw [hi]; exact hlt)
      (by rw [hi]; exact ho') hw' (by rw [hi]; exact hl)

theorem cursorInv_raise {s : State} (hc : s.cfg.Legal) (e : Event) : CursorInv (s.raise e) := by
  obtain ⟨hpos, -⟩ := hc.bounds
  exact cursorInv_of_sync hc rfl hpos rfl

/-! ### Every byte operation keeps the cursor invariant -/

theorem index_succ_toNat {i : Index} {n : Nat} (h : i.toNat < n) (hn : n ≤ 500) : (i + 1#9).toNat = i.toNat + 1 := by
  rw [BitVec.toNat_add, BitVec.toNat_ofNat]
  omega

theorem subIndex_succ_lt {j : SubIndex} {w : Nat} (hj : j.toNat < w) (hw : w ≤ 4) (hne : (j + 1#3).toNat ≠ w) :
    (j + 1#3).toNat < w := by
  rw [BitVec.toNat_add, BitVec.toNat_ofNat] at hne ⊢
  omega

theorem selectOp_of_sync {s : State} {op : ByteOp} (h : CursorInv s) (hs : s.stage = .sync) (ho : s.selectOp = .ok op) :
    ∃ c, op = .sync c := by
  obtain ⟨hi, -⟩ := h.sync hs
  have hop := (selectOp_eq_ok_iff_entryOp (.inl hs) op).1 ho
  rw [entryOp_sync h.legal _ hi, Option.map_eq_some_iff] at hop
  obtain ⟨c, -, rfl⟩ := hop
  exact ⟨c, rfl⟩

/-- SYNC (R101): on to the next sync byte, into the first Header entry, or back to the start. -/
theorem execSync_cursorInv {c : Byte} {s t : State} (h : CursorInv s) (hs : s.stage = .sync)
    (hrun : execSync c s = .next t) : CursorInv t := by
  obtain ⟨hi, hj⟩ := h.sync hs
  obtain ⟨-, hsh, hhdr, -, -⟩ := h.legal.bounds
  obtain ⟨b, -, ⟨-, -, rfl⟩ | ⟨-, rfl⟩⟩ := execSync_eq_next hrun
  · have hnext := index_succ_toNat hi (by omega)
    by_cases hend : (s.byteIndex + 1#9).toNat = s.cfg.syncLen
    · obtain ⟨op, hop⟩ := Option.isSome_iff_exists.1 (entryOp_syncLen_isSome h.legal)
      obtain ⟨hw, -⟩ := opWidth_bounds op
      refine cursorInv_of_header h.legal (if_pos hend) hend.ge (hend.trans_lt hsh) (by rw [hend]; exact hop)
        (by rw [hj]; exact hw) fun hp h10 => ?_
      obtain ⟨-, hthree, -⟩ := h.legal.gps_fields hp
      rw [hend] at h10
      omega
    · exact cursorInv_of_sync h.legal ((if_neg hend).trans hs) (by dsimp only; omega) hj
  · exact cursorInv_raise (s := { s with byteIn := none }) h.legal _

/-- PAYF and PAYV (R130, R131), where the count is the payload length: the Trailer stage begins exactly at its end. -/
theorem copyPayload_cursorInv {n : State → Nat} {s t : State} (h : CursorInv s) (hs : s.stage = .payload)
    (hn : ∀ m, n { s with byteIn := none, buf := m } = s.payloadLen) (hrun : copyPayload n s = .next t) : CursorInv t := by
  obtain ⟨hlo, hhi, hj, hl⟩ := h.payload hs
  obtain ⟨-, hfit⟩ := payloadLen_bounds h.legal hl
  obtain ⟨b, -, -, rfl⟩ := copyPayload_eq_next hrun
  rw [hn]
  have hnext := index_succ_toNat hhi (by omega)
  by_cases hend : (s.byteIndex + 1#9).toNat = s.cfg.hdrLen + s.payloadLen
  · have htrl : 0 < s.cfg.trlLen := legal_forall (P := fun c => 0 < c.trlLen) (by decide) (by decide) h.legal
    exact cursorInv_of_trailer h.legal (if_pos hend) hend (by rw [hj]; exact htrl) hl
  · refine cursorInv_of_payload h.legal ((if_neg hend).trans hs) (by dsimp only; omega) ?_ hj hl
    change (s.byteIndex + 1#9).toNat < s.cfg.hdrLen + s.payloadLen
    omega

/-- TSUM (R150) leaves the cursor at (Sync, 0, 0), whatever it finds. -/
theorem execTsum_cursorInv {s t : State} (hc : s.cfg.Legal) (hrun : execTsum s = .next t) : CursorInv t := by
  obtain ⟨hpos, -⟩ := hc.bounds
  obtain ⟨b, -, -, ⟨-, rfl⟩ | ⟨-, rfl⟩⟩ := execTsum_eq_next hrun <;> exact cursorInv_of_sync hc rfl hpos rfl

/-- TCRC (R152): one trailer byte further, or the cursor at (Sync, 0, 0). -/
theorem execTcrc_cursorInv {s t : State} (h : CursorInv s) (hs : s.stage = .trailer) (hp : s.cfg.proto = .gps)
    (hrun : execTcrc s = .next t) : CursorInv t := by
  obtain ⟨hi, hj, hl⟩ := h.trailer hs
  obtain ⟨-, -, -, htrl, -⟩ := h.legal.gps_fields hp
  obtain ⟨hpos, -⟩ := h.legal.bounds
  obtain ⟨b, -, -, rfl⟩ := execTcrc_eq_next hrun
  split
  · exact cursorInv_of_sync h.legal rfl hpos rfl
  · next hne => exact cursorInv_of_trailer h.legal hs hi (by rw [htrl] at hj ⊢; exact subIndex_succ_lt hj le_rfl hne) hl

/-- The accumulate contract (R118): one byte further in the entry, or what `fin` makes of the entry's end. -/
theorem accumulate_cursorInv {op : ByteOp} {fin : State → State} {s t : State} (h : AtEntry op s)
    (hj : s.subIndex.toNat < opWidth op) (hfin : ∀ u, AtEntry op u → CursorInv (fin u))
    (hrun : accumulate (opWidth op) fin s = .next t) : CursorInv t := by
  obtain ⟨b, -, -, rfl⟩ := accumulate_eq_next hrun
  obtain ⟨-, hw⟩ := opWidth_bounds op
  split
  · exact hfin _ (h.congr rfl rfl rfl rfl)
  · next hne => exact AtEntry.cursorInv (h.congr rfl rfl rfl rfl) (subIndex_succ_lt hj hw hne)

/-- An entry other than ACCLEN does not make `messageLength` known. -/
theorem AtEntry.advance_of_ne_acclen {op : ByteOp} {s : State} (h : AtEntry op s) (hop : op ≠ .acclen) :
    CursorInv (s.advance (opWidth op)) := by
  obtain ⟨-, -, hlen⟩ := h.headerEntry
  obtain ⟨-, -, hten⟩ := hlen.resolve_left hop
  exact h.advance fun hp h10 => h.lengthOk hp (hten h10)

theorem messageLength_writeField {s : State} {d : Dest} (v : Nat) (hd : d ≠ .messageLength) :
    (s.writeField d v).messageLength = s.messageLength :=
  BitVec.eq_of_toNat_eq (s.readField_writeField_other d .messageLength v hd.symm)

/-- The end of ACC16 and ACC32 (R113, R114), in an entry of another register than `messageLength`. -/
theorem AtEntry.writeField_advance {op : ByteOp} {s : State} {d : Dest} (h : AtEntry op s)
    (hop : op = .acc16 d ∨ op = .acc32 d) (v : Nat) : CursorInv ((s.writeField d v).advance (opWidth op)) := by
  have hne : op ≠ .acclen := by rcases hop with rfl | rfl <;> simp
  obtain ⟨-, -, hlen⟩ := h.headerEntry
  obtain ⟨h16, h32, -⟩ := hlen.resolve_left hne
  have hd : d ≠ .messageLength := by
    rintro rfl
    exact hop.elim h16 h32
  exact (h.congr (by simp) (by simp) (by simp) (messageLength_writeField v hd)).advance_of_ne_acclen hne

/-- The end of ACCLEN (R115): the cursor goes on only with an admitted length. -/
theorem finishLength_cursorInv {s : State} (h : AtEntry .acclen s) : CursorInv (finishLength s) := by
  unfold finishLength
  dsimp only
  split
  · exact cursorInv_raise (by simpa using h.legal) _
  · next hadm =>
    have hadm : (s.writeField .messageLength (s.leAt s.byteIndex.toNat 2)).lengthAdmitted = true := by
      rw [State.lengthAdmitted, Bool.and_eq_true, decide_eq_true_eq, decide_eq_true_eq]
      omega
    exact AtEntry.advance (op := .acclen) ⟨h.legal, h.stage, h.lower, h.upper, h.entry, fun _ _ => hadm⟩ fun _ _ => hadm

theorem execAcc16_cursorInv {d : Dest} {s t : State} (h : AtEntry (.acc16 d) s) (hj : s.subIndex.toNat < 2)
    (hrun : execAcc16 d s = .next t) : CursorInv t :=
  accumulate_cursorInv h hj (fun u hu => hu.writeField_advance (.inl rfl) (u.leAt u.byteIndex.toNat 2)) hrun

theorem execAcc32_cursorInv {d : Dest} {s t : State} (h : AtEntry (.acc32 d) s) (hj : s.subIndex.toNat < 4)
    (hrun : execAcc32 d s = .next t) : CursorInv t :=
  accumulate_cursorInv h hj (fun u hu => hu.writeField_advance (.inr rfl) (u.leAt u.byteIndex.toNat 4)) hrun

theorem runByteOp_cursorInv_header {op : ByteOp} {s t : State} (h : CursorInv s) (hs : s.stage = .header)
    (ho : s.selectOp = .ok op) (hrun : runByteOp op s = .next t) : CursorInv t := by
  obtain ⟨hat, hj⟩ := h.header hs ho
  obtain ⟨hhdr, -⟩ := hat.headerEntry
  cases op with
  | cver c =>
    obtain ⟨b, -, ⟨-, -, rfl⟩ | ⟨-, rfl⟩⟩ := execCver_eq_next hrun
    · exact AtEntry.advance_of_ne_acclen (op := .cver c) (hat.congr rfl rfl rfl rfl) (by simp)
    · exact cursorInv_raise (s := { s with byteIn := none }) h.legal _
  | pass =>
    obtain ⟨b, -, -, rfl⟩ := execPass_eq_next hrun
    exact AtEntry.advance_of_ne_acclen (op := .pass) (hat.congr rfl rfl rfl rfl) (by simp)
  | acc16 d => exact execAcc16_cursorInv hat hj hrun
  | acc32 d => exact execAcc32_cursorInv hat hj hrun
  | acclen => exact accumulate_cursorInv hat hj (fun u hu => finishLength_cursorInv hu) hrun
  | skip =>
    obtain ⟨b, -, rfl⟩ := execSkip_eq_next hrun
    split
    · exact AtEntry.advance_of_ne_acclen (op := .skip) (hat.congr rfl rfl rfl rfl) (by simp)
    · next hne => exact AtEntry.cursorInv (hat.congr rfl rfl rfl rfl) (subIndex_succ_lt hj (by decide) hne)
  | sync _ | payf _ | payv | tsum | tcrc => simp [isHeaderOp] at hhdr

theorem runByteOp_cursorInv_payload {op : ByteOp} {s t : State} (h : CursorInv s) (hs : s.stage = .payload)
    (ho : s.selectOp = .ok op) (hrun : runByteOp op s = .next t) : CursorInv t := by
  obtain rfl : payloadOp s.cfg.proto = op := Except.ok.inj ((selectOp_of_payload h.legal hs).symm.trans ho)
  cases hp : s.cfg.proto with
  | imu =>
    obtain ⟨-, -, -, -, -, -, -, -, -, hpay⟩ := h.legal.imu_fields hp
    rw [hp] at hrun
    exact copyPayload_cursorInv h hs (fun m => by simp [State.payloadLen, hp, hpay]) hrun
  | gps =>
    rw [hp] at hrun
    exact copyPayload_cursorInv h hs (fun m => by simp [State.payloadLen, hp]) hrun

theorem runByteOp_cursorInv_trailer {op : ByteOp} {s t : State} (h : CursorInv s) (hs : s.stage = .trailer)
    (ho : s.selectOp = .ok op) (hrun : runByteOp op s = .next t) : CursorInv t := by
  obtain rfl : trailerOp s.cfg.proto = op := Except.ok.inj ((selectOp_of_trailer h.legal hs).symm.trans ho)
  cases hp : s.cfg.proto with
  | imu =>
    rw [hp] at hrun
    exact execTsum_cursorInv h.legal hrun
  | gps =>
    rw [hp] at hrun
    exact execTcrc_cursorInv h hs hp hrun

/-- The selected byte operation keeps the cursor invariant. -/
theorem runByteOp_cursorInv {op : ByteOp} {s t : State} (h : CursorInv s) (ho : s.selectOp = .ok op)
    (hrun : runByteOp op s = .next t) : CursorInv t := by
  cases hs : s.stage with
  | sync =>
    obtain ⟨c, rfl⟩ := selectOp_of_sync h hs ho
    exact execSync_cursorInv h hs hrun
  | header => exact runByteOp_cursorInv_header h hs ho hrun
  | payload => exact runByteOp_cursorInv_payload h hs ho hrun
  | trailer => exact runByteOp_cursorInv_trailer h hs ho hrun

end Sys2Proof.Machine

/-! One machine step, case by case, and what `ready` reports (R9, R22, R30). -/

namespace Sys2Proof.Machine

/-! ### What a machine step can do -/

/-- What a step does with the host's next command, `s` being the state from which its word is taken (R88, R220). -/
inductive CommandStep (s : State) : State → Prop where
  /-- No command. -/
  | idle : CommandStep s s
  | step (b : Byte) (t : State) (h : stepByte b s = .next t) : CommandStep s t
  | acquire (n : Half) (t : State) (h : acquireLoop s.source ((s.beginAcquire n).testBudget n) = .next t) : CommandStep s t
  | reset : CommandStep s s.resetRegisters

theorem exec_byteOp (op : ByteOp) (s : State) : exec op.toInstr s = runByteOp op s := by
  cases op <;> rfl

theorem exec_readAnswer (a : ReadAnswer) (s : State) : exec a.toInstr s = readAttempt a s := by
  cases a <;> rfl

theorem decode_outcome_eq_ok {w : RdWord} {i : Instr} (h : decode (.outcome w) = .ok i) : ∃ a, i = ReadAnswer.toInstr a := by
  rw [decode] at h
  cases ha : decodeAnswer w with
  | error why => rw [ha] at h; cases h
  | ok a => rw [ha] at h; exact ⟨a, (Except.ok.inj h).symm⟩

theorem decode_command_eq_ok {w : CmdWord} {i : Instr} (h : decode (.command w) = .ok i) :
    (∃ b, i = .step b) ∨ (∃ n, i = .acquire n) ∨ i = .reset := by
  rw [decode, decodeCommand] at h
  split at h
  · cases h
  split at h
  · split at h
    · exact .inl ⟨_, (Except.ok.inj h).symm⟩
    · cases h
  split at h
  · exact .inr (.inl ⟨_, (Except.ok.inj h).symm⟩)
  split at h
  · exact .inr (.inr (Except.ok.inj h).symm)
  · cases h

theorem takeAnswer_state (s : State) : ∃ ws k, s.takeAnswer.2 = { s with source := ws, freeReads := k } := by
  rw [State.takeAnswer]
  split
  · next ws _ => exact ⟨ws, s.freeReads, rfl⟩
  · exact ⟨s.source, s.freeReads + 1, rfl⟩

/-- A command is run as its instruction; with nothing in progress it is not refused as overlapping (R244). -/
theorem exec_command_eq_next {w : CmdWord} {i : Instr} {s t : State} (hs : s.busy = false)
    (hw : decode (.command w) = .ok i) (h : exec i s = .next t) : CommandStep s t := by
  obtain ⟨b, rfl⟩ | ⟨n, rfl⟩ | rfl := decode_command_eq_ok hw
  · rw [exec, execStep, hs] at h
    exact .step b t h
  · rw [exec, execAcquire, hs] at h
    exact .acquire n t h
  · rw [exec, execReset, hs] at h
    cases h
    exact .reset

/-- A due byte operation is run (R100). -/
theorem step_eq_next_of_byteIn {s t : State} (hb : s.byteIn.isSome = true) (h : step s = .next t) :
    ∃ op, s.selectOp = .ok op ∧ runByteOp op s = .next t := by
  rw [step, fetch, if_pos hb, fetchByteOp] at h
  cases ho : s.selectOp with
  | error r =>
    rw [ho] at h
    cases h
  | ok op =>
    rw [ho] at h
    exact ⟨op, rfl, (exec_byteOp op s).symm.trans h⟩

/-- An ACQUIRE in progress makes an attempt on ByteSource's next answer (R174). -/
theorem step_eq_next_of_budget {s t : State} (hb : ¬ s.byteIn.isSome = true) (hn : s.budget.isSome = true)
    (h : step s = .next t) : ∃ a ws k, readAttempt a { s with source := ws, freeReads := k } = .next t := by
  rw [step, fetch, if_neg hb, if_pos hn, fetchAnswer] at h
  cases hw : decode (.outcome s.takeAnswer.1) with
  | error why =>
    rw [hw] at h
    cases h
  | ok i =>
    obtain ⟨a, rfl⟩ := decode_outcome_eq_ok hw
    obtain ⟨ws, k, hu⟩ := takeAnswer_state s
    rw [hw, hu] at h
    exact ⟨a, ws, k, (exec_readAnswer a _).symm.trans h⟩

/-- With nothing in progress the host's next command is taken (R88, R220). -/
theorem step_eq_next_of_not_busy {s t : State} (hs : s.busy = false) (h : step s = .next t) :
    ∃ ws, CommandStep { s with commands := ws } t := by
  obtain ⟨hn, hb⟩ := Bool.or_eq_false_iff.1 hs
  rw [step, fetch, if_neg (by simp [hb]), if_neg (by simp [hn]), fetchCommand] at h
  cases hc : s.commands with
  | nil =>
    rw [hc] at h
    cases h
    exact ⟨s.commands, .idle⟩
  | cons w ws =>
    rw [hc] at h
    dsimp only at h
    refine ⟨ws, ?_⟩
    cases hw : decode (.command w) with
    | ok i =>
      rw [hw] at h
      exact exec_command_eq_next hs hw h
    | error why =>
      rw [hw] at h
      cases why <;> cases h
      exact .idle

/-- A step that answers a next state ran the due byte operation, or an attempt of the ACQUIRE in progress, or took the host's
next command. -/
theorem step_eq_next {s t : State} (h : step s = .next t) :
    (s.byteIn.isSome = true ∧ ∃ op, s.selectOp = .ok op ∧ runByteOp op s = .next t) ∨
    (∃ a ws k, readAttempt a { s with source := ws, freeReads := k } = .next t) ∨
    (s.busy = false ∧ ∃ ws, CommandStep { s with commands := ws } t) := by
  by_cases hb : s.byteIn.isSome = true
  · exact .inl ⟨hb, step_eq_next_of_byteIn hb h⟩
  by_cases hn : s.budget.isSome = true
  · exact .inr (.inl (step_eq_next_of_budget hb hn h))
  · have hs : s.busy = false := by simp [State.busy, hb, hn]
    exact .inr (.inr ⟨hs, step_eq_next_of_not_busy hs h⟩)

/-! ### What `ready` reports -/

/-- `t` has the parameters, cursor, `messageLength` and reported results of `s`: what an ACQUIRE's bookkeeping and the words on the
interfaces leave alone. -/
structure SameDecoder (s t : State) : Prop where
  cfg : t.cfg = s.cfg
  stage : t.stage = s.stage
  byteIndex : t.byteIndex = s.byteIndex
  subIndex : t.subIndex = s.subIndex
  messageLength : t.messageLength = s.messageLength
  ready : t.ready = s.ready
  checkOk : t.checkOk = s.checkOk
  length : t.length = s.length

theorem sameDecoder_endAcquire (s : State) (r : AcqResult) : SameDecoder s (s.endAcquire r) :=
  ⟨rfl, rfl, rfl, rfl, rfl, rfl, rfl, rfl⟩

theorem sameDecoder_testBudget (s : State) (n : Half) : SameDecoder s (s.testBudget n) := by
  constructor <;> simp

/-- The invariant behind `ready`: the cursor's, and that a set `ready` reports a frame. -/
structure ReportInv (s : State) : Prop where
  cursorInv : CursorInv s
  reports : s.Reports

theorem ReportInv.congr {s t : State} (h : ReportInv s) (H : SameDecoder s t) : ReportInv t := by
  refine ⟨h.cursorInv.congr H.cfg H.stage H.byteIndex H.subIndex H.messageLength, ?_⟩
  have hrep := h.reports
  rw [State.Reports] at hrep ⊢
  rwa [H.ready, H.cfg, H.checkOk, H.length, H.messageLength]

theorem reports_of_not_ready {s : State} (h : s.ready = false) : s.Reports := fun hr => by
  rw [h] at hr
  cases hr

theorem accumulate_ready {w : Nat} {fin : State → State} {s t : State} (hfin : ∀ u, (fin u).ready = u.ready)
    (h : accumulate w fin s = .next t) : t.ready = s.ready := by
  obtain ⟨b, -, -, rfl⟩ := accumulate_eq_next h
  split
  · rw [hfin]
  · rfl

theorem finishLength_ready (s : State) : (finishLength s).ready = s.ready := by
  rcases finishLength_cases s with h | h <;> simp [h]

/-- Only TSUM on accept and TCRC set `ready` (R29), each with the length of its frame (R22). -/
theorem runByteOp_ready {op : ByteOp} {s t : State} (h : runByteOp op s = .next t) :
    t.ready = s.ready ∨ (op = .tsum ∧ t.checkOk = true ∧ t.length = s.byteIndex + 1#9) ∨
      (op = .tcrc ∧ t.messageLength = s.messageLength ∧ t.length = s.byteIndex + 4#9) := by
  cases op with
  | sync c => obtain ⟨b, -, ⟨-, -, rfl⟩ | ⟨-, rfl⟩⟩ := execSync_eq_next h <;> exact .inl rfl
  | cver c => obtain ⟨b, -, ⟨-, -, rfl⟩ | ⟨-, rfl⟩⟩ := execCver_eq_next h <;> exact .inl rfl
  | pass =>
    obtain ⟨b, -, -, rfl⟩ := execPass_eq_next h
    exact .inl rfl
  | acc16 d => exact .inl (accumulate_ready (by simp) (show execAcc16 d s = .next t from h))
  | acc32 d => exact .inl (accumulate_ready (by simp) (show execAcc32 d s = .next t from h))
  | acclen => exact .inl (accumulate_ready finishLength_ready h)
  | skip =>
    obtain ⟨b, -, rfl⟩ := execSkip_eq_next h
    split <;> exact .inl rfl
  | payf n =>
    obtain ⟨b, -, -, rfl⟩ := copyPayload_eq_next h
    exact .inl rfl
  | payv =>
    obtain ⟨b, -, -, rfl⟩ := copyPayload_eq_next h
    exact .inl rfl
  | tsum =>
    obtain ⟨b, -, -, ⟨-, rfl⟩ | ⟨-, rfl⟩⟩ := execTsum_eq_next h
    · exact .inr (.inl ⟨rfl, rfl, rfl⟩)
    · exact .inl rfl
  | tcrc =>
    obtain ⟨b, -, -, rfl⟩ := execTcrc_eq_next h
    split
    · exact .inr (.inr ⟨rfl, rfl, rfl⟩)
    · exact .inl rfl

/-- TSUM and TCRC are selected in the Trailer stage only, so each by its own format (R86, R87). -/
theorem selectOp_completing {op : ByteOp} {s : State} (h : CursorInv s) (ho : s.selectOp = .ok op)
    (hop : op = .tsum ∨ op = .tcrc) : s.stage = .trailer ∧ op = trailerOp s.cfg.proto := by
  cases hs : s.stage with
  | sync =>
    obtain ⟨c, rfl⟩ := selectOp_of_sync h hs ho
    simp at hop
  | header =>
    obtain ⟨hat, -⟩ := h.header hs ho
    obtain ⟨hhdr, -⟩ := hat.headerEntry
    rcases hop with rfl | rfl <;> cases hhdr
  | payload =>
    obtain rfl := Except.ok.inj ((selectOp_of_payload h.legal hs).symm.trans ho)
    cases hp : s.cfg.proto <;> simp [hp, payloadOp] at hop
  | trailer => exact ⟨rfl, Except.ok.inj (ho.symm.trans (selectOp_of_trailer h.legal hs))⟩

theorem tsum_reports {s t : State} (h : CursorInv s) (ho : s.selectOp = .ok .tsum) (hc : t.cfg = s.cfg)
    (hk : t.checkOk = true) (hlen : t.length = s.byteIndex + 1#9) : t.Reports := by
  obtain ⟨hs, hop⟩ := selectOp_completing h ho (.inl rfl)
  have hp := trailerOp_eq_tsum_iff.1 hop.symm
  obtain ⟨-, -, hhdr, -, -, -, -, -, -, hpay⟩ := h.legal.imu_fields hp
  obtain ⟨hi, -⟩ := h.trailer hs
  have hi : s.byteIndex.toNat = 37 := by simpa [State.payloadLen, hp, hhdr, hpay] using hi
  intro _
  rw [hc, hp]
  refine ⟨hk, ?_⟩
  rw [hlen, BitVec.toNat_add, hi]
  rfl

theorem tcrc_reports {s t : State} (h : CursorInv s) (ho : s.selectOp = .ok .tcrc) (hc : t.cfg = s.cfg)
    (hm : t.messageLength = s.messageLength) (hlen : t.length = s.byteIndex + 4#9) : t.Reports := by
  obtain ⟨hs, hop⟩ := selectOp_completing h ho (.inr rfl)
  have hp := trailerOp_eq_tcrc_iff.1 hop.symm
  obtain ⟨-, -, hhdr, htrl, -⟩ := h.legal.gps_fields hp
  obtain ⟨hi, -, hl⟩ := h.trailer hs
  obtain ⟨hpos, hfit⟩ := payloadLen_bounds h.legal hl
  have hpay : s.payloadLen = s.messageLength.toNat := by simp [State.payloadLen, hp]
  have hlen : t.length.toNat = 32 + s.messageLength.toNat := by
    rw [hlen, BitVec.toNat_add, BitVec.toNat_ofNat]
    omega
  intro _
  rw [hc, hp, hm]
  refine ⟨hlen, ?_, ?_⟩ <;> omega

/-- The selected byte operation, run with `ready` cleared, sets it only for a frame. -/
theorem runByteOp_reportInv {op : ByteOp} {s t : State} (h : CursorInv s) (hr : s.ready = false) (ho : s.selectOp = .ok op)
    (hrun : runByteOp op s = .next t) : ReportInv t := by
  refine ⟨runByteOp_cursorInv h ho hrun, ?_⟩
  have hc := (runByteOp_tookByte hrun).cfg
  obtain hsame | ⟨rfl, hk, hlen⟩ | ⟨rfl, hm, hlen⟩ := runByteOp_ready hrun
  · exact reports_of_not_ready (hsame.trans hr)
  · exact tsum_reports h ho hc hk hlen
  · exact tcrc_reports h ho hc hm hlen

/-- A STEP keeps the cursor invariant (R27: it holds "after every STEP"), and reports only a frame. -/
theorem stepByte_reportInv {b : Byte} {s t : State} (h : CursorInv s) (hrun : stepByte b s = .next t) : ReportInv t := by
  obtain ⟨op, ho, hrun⟩ := stepByte_eq_next hrun
  exact runByteOp_reportInv (s := { s.clearFlags with byteIn := some b }) (h.congr rfl rfl rfl rfl rfl) rfl ho hrun

theorem readAttempt_reportInv {a : ReadAnswer} {s t : State} (h : ReportInv s) (hrun : readAttempt a s = .next t) :
    ReportInv t := by
  have hcount : ReportInv { s with attempts := s.attempts + 1#16 } := h.congr ⟨rfl, rfl, rfl, rfl, rfl, rfl, rfl, rfl⟩
  obtain ⟨-, n, -, ⟨-, rfl⟩ | ⟨-, rfl⟩ | ⟨b, u, -, hu, rfl⟩⟩ := readAttempt_eq_next hrun
  · exact hcount.congr (sameDecoder_endAcquire _ _)
  · split
    · exact hcount.congr (sameDecoder_endAcquire _ _)
    · exact hcount.congr (sameDecoder_testBudget _ _)
  · have hstep := stepByte_reportInv hcount.cursorInv hu
    split
    · exact hstep.congr (sameDecoder_endAcquire _ _)
    · exact hstep.congr (sameDecoder_testBudget _ _)

theorem acquireLoop_reportInv {ws : List RdWord} {s t : State} (h : ReportInv s) (hrun : acquireLoop ws s = .next t) :
    ReportInv t :=
  acquireLoop_induct (fun _ _ _ hs hrun => readAttempt_reportInv hs hrun)
    (fun _ _ hs => hs.congr ⟨rfl, rfl, rfl, rfl, rfl, rfl, rfl, rfl⟩) ws s t h hrun

/-- ACQUIRE clears `ready` before its first attempt (R179). -/
theorem beginAcquire_reportInv {s : State} (h : CursorInv s) (n : Half) : ReportInv ((s.beginAcquire n).testBudget n) :=
  have hbegin : ReportInv (s.beginAcquire n) := ⟨h.congr rfl rfl rfl rfl rfl, reports_of_not_ready rfl⟩
  hbegin.congr (sameDecoder_testBudget _ _)

theorem commandStep_reportInv {s t : State} (h : ReportInv s) (hrun : CommandStep s t) : ReportInv t := by
  cases hrun with
  | idle => exact h
  | step b t hrun => exact stepByte_reportInv h.cursorInv hrun
  | acquire n t hrun => exact acquireLoop_reportInv (beginAcquire_reportInv h.cursorInv n) hrun
  | reset =>
    obtain ⟨hpos, -⟩ := h.cursorInv.legal.bounds
    exact ⟨cursorInv_of_sync h.cursorInv.legal rfl hpos rfl, reports_of_not_ready rfl⟩

/-- Settles O44: by cases on what the step does; the latch clause of the invariant says that a due byte operation finds
`ready` cleared. -/
theorem readyMeansAReportedFrame : Obligations.ReadyMeansAReportedFrame := by
  unfold Obligations.ReadyMeansAReportedFrame
  intro s t hinv hrep hstep
  have h : ReportInv s := ⟨inv_cursorInv hinv, hrep⟩
  obtain ⟨hb, op, ho, hrun⟩ | ⟨a, ws, k, hrun⟩ | ⟨-, ws, hrun⟩ := step_eq_next hstep
  · obtain ⟨hr, -⟩ := hinv.latch hb
    exact (runByteOp_reportInv h.cursorInv hr ho hrun).reports
  · have hsrc : ReportInv { s with source := ws, freeReads := k } := h.congr ⟨rfl, rfl, rfl, rfl, rfl, rfl, rfl, rfl⟩
    exact (readAttempt_reportInv hsrc hrun).reports
  · have hcmd : ReportInv { s with commands := ws } := h.congr ⟨rfl, rfl, rfl, rfl, rfl, rfl, rfl, rfl⟩
    exact (commandStep_reportInv hcmd hrun).reports

end Sys2Proof.Machine

/-! What a byte operation does to the report registers, the field registers and the frame buffer (R22, R23, R53). -/

namespace Sys2Proof.Machine

/-! ### The report registers -/

/-- What a completion writes: `length`, `check_ok`, `rxCheck`, `calcCheck` and `ready` (R22, R29, R30, R32). -/
def State.report (s : State) : Index × Bool × Word × Word × Bool := (s.length, s.checkOk, s.rxCheck, s.calcCheck, s.ready)

theorem report_eq_iff {s t : State} : t.report = s.report ↔ SameReport s t ∧ t.ready = s.ready := by
  simp [State.report, SameReport, and_assoc]

/-- What the counting of a byte and the end of the field both leave alone, an accumulate entry leaves alone (R118). -/
theorem accumulate_keeps {α : Type} (f : State → α) {w : Nat} {fin : State → State} {s t : State}
    (hcount : ∀ (u : State) (b : Option Byte) (m : Memory) (j : SubIndex),
      f { u with byteIn := b, buf := m, subIndex := j } = f u)
    (hfin : ∀ u, f (fin u) = f u) (h : accumulate w fin s = .next t) : f t = f s := by
  obtain ⟨b, -, -, rfl⟩ := accumulate_eq_next h
  split
  · rw [hfin, hcount]
  · rw [hcount]

theorem report_writeField_advance (s : State) (d : Dest) (v w : Nat) : ((s.writeField d v).advance w).report = s.report := by
  simp [State.report]

theorem finishLength_report (s : State) : (finishLength s).report = s.report := by
  rcases finishLength_cases s with h | h <;> simp [h, State.report]

/-- A trailer completion (R150, R152): TSUM, or TCRC at its fourth byte. The cursor is at (Sync, 0, 0) after it (R155), and
`length` changes only with `ready` set (R22). -/
structure Completes (op : ByteOp) (s t : State) : Prop where
  completing : op = .tsum ∨ (op = .tcrc ∧ (s.subIndex + 1#3).toNat = 4)
  atRest : t.stage = .sync ∧ t.byteIndex = 0#9 ∧ t.subIndex = 0#3
  length : t.length = s.length ∨ t.ready = true

/-- A byte operation keeps the report registers, or it is a trailer completion. -/
theorem runByteOp_report {op : ByteOp} {s t : State} (h : runByteOp op s = .next t) :
    t.report = s.report ∨ Completes op s t := by
  cases op with
  | sync c => obtain ⟨b, -, ⟨-, -, rfl⟩ | ⟨-, rfl⟩⟩ := execSync_eq_next h <;> exact .inl rfl
  | cver c => obtain ⟨b, -, ⟨-, -, rfl⟩ | ⟨-, rfl⟩⟩ := execCver_eq_next h <;> exact .inl rfl
  | pass =>
    obtain ⟨b, -, -, rfl⟩ := execPass_eq_next h
    exact .inl rfl
  | acc16 d =>
    exact .inl (accumulate_keeps State.report (fun _ _ _ _ => rfl)
      (fun u => report_writeField_advance u d (u.leAt u.byteIndex.toNat 2) 2) h)
  | acc32 d =>
    exact .inl (accumulate_keeps State.report (fun _ _ _ _ => rfl)
      (fun u => report_writeField_advance u d (u.leAt u.byteIndex.toNat 4) 4) h)
  | acclen => exact .inl (accumulate_keeps State.report (fun _ _ _ _ => rfl) finishLength_report h)
  | skip =>
    obtain ⟨b, -, rfl⟩ := execSkip_eq_next h
    split <;> exact .inl rfl
  | payf n =>
    obtain ⟨b, -, -, rfl⟩ := copyPayload_eq_next h
    exact .inl rfl
  | payv =>
    obtain ⟨b, -, -, rfl⟩ := copyPayload_eq_next h
    exact .inl rfl
  | tsum =>
    obtain ⟨b, -, -, ⟨-, rfl⟩ | ⟨-, rfl⟩⟩ := execTsum_eq_next h
    · exact .inr ⟨.inl rfl, ⟨rfl, rfl, rfl⟩, .inr rfl⟩
    · exact .inr ⟨.inl rfl, ⟨rfl, rfl, rfl⟩, .inl rfl⟩
  | tcrc =>
    obtain ⟨b, -, -, rfl⟩ := execTcrc_eq_next h
    split
    · next hfourth => exact .inr ⟨.inr ⟨rfl, hfourth⟩, ⟨rfl, rfl, rfl⟩, .inr rfl⟩
    · exact .inl rfl

/-- A byte operation that leaves `ready` cleared leaves `length`. -/
theorem runByteOp_length {op : ByteOp} {s t : State} (h : runByteOp op s = .next t) :
    t.length = s.length ∨ t.ready = true := by
  obtain hsame | hdone := runByteOp_report h
  · obtain ⟨⟨hlen, -⟩, -⟩ := report_eq_iff.1 hsame
    exact .inl hlen
  · exact hdone.length

/-- Settles O36: a byte operation keeps the report registers unless it is a trailer completion. -/
theorem resultsAreWrittenOnlyAtCompletion : Obligations.ResultsAreWrittenOnlyAtCompletion := by
  unfold Obligations.ResultsAreWrittenOnlyAtCompletion
  intro op s t h
  rw [exec_byteOp] at h
  refine ⟨fun ⟨hsum, hcrc⟩ => ?_, fun hlen => (runByteOp_length h).resolve_left hlen⟩
  obtain hsame | hdone := runByteOp_report h
  · exact report_eq_iff.1 hsame
  · obtain rfl | ⟨rfl, hfourth⟩ := hdone.completing
    · exact absurd rfl hsum
    · exact absurd hfourth (hcrc.resolve_left (by simp))

/-! ### The field registers -/

@[simp] theorem readField_advance (s : State) (w : Nat) (d : Dest) : (s.advance w).readField d = s.readField d := rfl

@[simp] theorem readField_raise (s : State) (e : Event) (d : Dest) : (s.raise e).readField d = s.readField d := rfl

theorem readField_writeField_advance (s : State) {d e : Dest} (v w : Nat) (h : d ≠ e) :
    ((s.writeField e v).advance w).readField d = s.readField d := by
  rw [readField_advance, State.readField_writeField_other s e d v h]

theorem finishLength_readField {d : Dest} (hd : d ≠ .messageLength) (s : State) :
    (finishLength s).readField d = s.readField d := by
  rcases finishLength_cases s with h | h
  · rw [h, readField_raise, State.readField_writeField_other _ _ _ _ hd]
  · rw [h, readField_advance, State.readField_writeField_other _ _ _ _ hd]

/-- Only an accumulate entry of a register writes it (R23). -/
theorem runByteOp_readField {op : ByteOp} {s t : State} {d : Dest} (h16 : op ≠ .acc16 d) (h32 : op ≠ .acc32 d)
    (hlen : op = .acclen → d ≠ .messageLength) (h : runByteOp op s = .next t) : t.readField d = s.readField d := by
  cases op with
  | sync c => obtain ⟨b, -, ⟨-, -, rfl⟩ | ⟨-, rfl⟩⟩ := execSync_eq_next h <;> rfl
  | cver c => obtain ⟨b, -, ⟨-, -, rfl⟩ | ⟨-, rfl⟩⟩ := execCver_eq_next h <;> rfl
  | pass =>
    obtain ⟨b, -, -, rfl⟩ := execPass_eq_next h
    rfl
  | acc16 e =>
    have hne : d ≠ e := fun hde => h16 (hde ▸ rfl)
    exact accumulate_keeps (·.readField d) (fun _ _ _ _ => rfl)
      (fun u => readField_writeField_advance u (u.leAt u.byteIndex.toNat 2) 2 hne) h
  | acc32 e =>
    have hne : d ≠ e := fun hde => h32 (hde ▸ rfl)
    exact accumulate_keeps (·.readField d) (fun _ _ _ _ => rfl)
      (fun u => readField_writeField_advance u (u.leAt u.byteIndex.toNat 4) 4 hne) h
  | acclen => exact accumulate_keeps (·.readField d) (fun _ _ _ _ => rfl) (finishLength_readField (hlen rfl)) h
  | skip =>
    obtain ⟨b, -, rfl⟩ := execSkip_eq_next h
    split <;> rfl
  | payf n =>
    obtain ⟨b, -, -, rfl⟩ := copyPayload_eq_next h
    rfl
  | payv =>
    obtain ⟨b, -, -, rfl⟩ := copyPayload_eq_next h
    rfl
  | tsum => obtain ⟨b, -, -, ⟨-, rfl⟩ | ⟨-, rfl⟩⟩ := execTsum_eq_next h <;> rfl
  | tcrc =>
    obtain ⟨b, -, -, rfl⟩ := execTcrc_eq_next h
    split <;> rfl

/-- Settles O37: by cases on the operation; an accumulate entry writes its own register and no other. -/
theorem fieldsAreWrittenOnlyByTheirEntry : Obligations.FieldsAreWrittenOnlyByTheirEntry := by
  unfold Obligations.FieldsAreWrittenOnlyByTheirEntry
  intro op s t h d h16 h32 hlen
  rw [exec_byteOp] at h
  exact runByteOp_readField h16 h32 hlen h

/-! ### The frame buffer -/

/-- `t`'s buffer is `s`'s, or `s`'s with one byte stored below the capacity (R53, R54). -/
def StoresInRange (s t : State) : Prop :=
  t.buf = s.buf ∨ ∃ x b, x < s.cfg.cap ∧ t.buf = s.buf.write x b

theorem accumulate_storesInRange {w : Nat} {fin : State → State} {s t : State} (hfin : ∀ u, (fin u).buf = u.buf)
    (h : accumulate w fin s = .next t) : StoresInRange s t := by
  obtain ⟨b, -, hlt, rfl⟩ := accumulate_eq_next h
  refine .inr ⟨_, b, hlt, ?_⟩
  split
  · rw [hfin]
  · rfl

theorem finishLength_buf (s : State) : (finishLength s).buf = s.buf := by
  rcases finishLength_cases s with h | h <;> simp [h]

/-- A byte operation stores at most one byte, below the capacity. -/
theorem runByteOp_storesInRange {op : ByteOp} {s t : State} (h : runByteOp op s = .next t) : StoresInRange s t := by
  cases op with
  | sync c =>
    obtain ⟨b, -, ⟨-, hlt, rfl⟩ | ⟨-, rfl⟩⟩ := execSync_eq_next h
    · exact .inr ⟨_, b, hlt, rfl⟩
    · exact .inl rfl
  | cver c =>
    obtain ⟨b, -, ⟨-, hlt, rfl⟩ | ⟨-, rfl⟩⟩ := execCver_eq_next h
    · exact .inr ⟨_, b, hlt, rfl⟩
    · exact .inl rfl
  | pass =>
    obtain ⟨b, -, hlt, rfl⟩ := execPass_eq_next h
    exact .inr ⟨_, b, hlt, rfl⟩
  | acc16 d => exact accumulate_storesInRange (by simp) (show execAcc16 d s = .next t from h)
  | acc32 d => exact accumulate_storesInRange (by simp) (show execAcc32 d s = .next t from h)
  | acclen => exact accumulate_storesInRange finishLength_buf h
  | skip =>
    obtain ⟨b, -, rfl⟩ := execSkip_eq_next h
    split <;> exact .inl rfl
  | payf n =>
    obtain ⟨b, -, hlt, rfl⟩ := copyPayload_eq_next h
    exact .inr ⟨_, b, hlt, rfl⟩
  | payv =>
    obtain ⟨b, -, hlt, rfl⟩ := copyPayload_eq_next h
    exact .inr ⟨_, b, hlt, rfl⟩
  | tsum => obtain ⟨b, -, hlt, ⟨-, rfl⟩ | ⟨-, rfl⟩⟩ := execTsum_eq_next h <;> exact .inr ⟨_, b, hlt, rfl⟩
  | tcrc =>
    obtain ⟨b, -, hlt, rfl⟩ := execTcrc_eq_next h
    split <;> exact .inr ⟨_, b, hlt, rfl⟩

end Sys2Proof.Machine

/-! The invariant of R27 holds after reset and is kept by every step (R27). -/

namespace Sys2Proof.Machine

/-- The part of `State.Inv` that does not speak of an operation in progress: it holds within a STEP and an attempt as well. -/
structure DecoderInv (s : State) : Prop where
  cursorInv : CursorInv s
  bufWf : s.buf.wf = true
  bufRange : ∀ c ∈ s.buf, c.1 < s.cfg.cap
  lengthCap : s.length.toNat ≤ s.cfg.cap
  readyAtRest : s.ready = true → s.stage = .sync ∧ s.byteIndex = 0#9 ∧ s.subIndex = 0#3

theorem State.Inv.decoderInv {s : State} (h : s.Inv) : DecoderInv s :=
  ⟨inv_cursorInv h, h.bufWf, h.bufRange, h.lengthCap, h.readyAtRest⟩

/-- With no byte operation due, the invariant adds only what it says of an ACQUIRE in progress. -/
theorem DecoderInv.inv {s : State} (h : DecoderInv s) (hb : s.byteIn = none)
    (hacq : ∀ n, s.budget = some n → s.attempts.toNat < n.toNat ∧ s.ready = false) : s.Inv where
  legal := h.cursorInv.legal
  bufWf := h.bufWf
  bufRange := h.bufRange
  cursor := h.cursorInv.cursor
  lengthOk := h.cursorInv.lengthOk
  lengthCap := h.lengthCap
  latch := by simp [hb]
  acquiring := hacq
  readyAtRest := h.readyAtRest

/-- With nothing in progress, it adds nothing. -/
theorem DecoderInv.inv_of_idle {s : State} (h : DecoderInv s) (hb : s.byteIn = none) (hn : s.budget = none) : s.Inv :=
  h.inv hb (by simp [hn])

theorem DecoderInv.congr {s t : State} (h : DecoderInv s) (H : SameDecoder s t) (hbuf : t.buf = s.buf) : DecoderInv t where
  cursorInv := h.cursorInv.congr H.cfg H.stage H.byteIndex H.subIndex H.messageLength
  bufWf := hbuf ▸ h.bufWf
  bufRange := by rw [hbuf, H.cfg]; exact h.bufRange
  lengthCap := by rw [H.length, H.cfg]; exact h.lengthCap
  readyAtRest := by rw [H.ready, H.stage, H.byteIndex, H.subIndex]; exact h.readyAtRest

/-- With `ready` cleared the clause on a reported frame is empty. -/
theorem DecoderInv.of_not_ready {s : State} (hc : CursorInv s) (hw : s.buf.wf = true) (hr : ∀ c ∈ s.buf, c.1 < s.cfg.cap)
    (hl : s.length.toNat ≤ s.cfg.cap) (hready : s.ready = false) : DecoderInv s :=
  ⟨hc, hw, hr, hl, by simp [hready]⟩

theorem busy_eq_false_iff {s : State} : s.busy = false ↔ s.budget = none ∧ s.byteIn = none := by
  simp [State.busy]

/-! ### After reset -/

theorem resetRegisters_decoderInv {s : State} (hc : s.cfg.Legal) : DecoderInv s.resetRegisters := by
  obtain ⟨hpos, -⟩ := hc.bounds
  exact .of_not_ready (cursorInv_of_sync hc rfl hpos rfl) rfl (by simp) (Nat.zero_le _) rfl

theorem resetOf_inv {c : Config} (hc : c.Legal) : (State.resetOf c).Inv :=
  (resetRegisters_decoderInv (s := State.resetOf c) hc).inv_of_idle rfl rfl

theorem ofProto_legal (p : Proto) : (Config.ofProto p).Legal := by
  cases p <;> rfl

/-- Settles O40: (Sync, 0, 0), an empty buffer and cleared flags meet every clause for legal parameters. -/
theorem resetMeetsTheInvariant : Obligations.ResetMeetsTheInvariant := by
  unfold Obligations.ResetMeetsTheInvariant
  exact fun p => ⟨resetOf_inv (ofProto_legal p), resetOf_inv (ofProto_legal .gps)⟩

/-! ### A byte operation and a STEP -/

/-- A store below the capacity keeps the canonical form and the range of the buffer. -/
theorem StoresInRange.buf_ok {s t : State} (h : StoresInRange s t) (hc : t.cfg = s.cfg) (hw : s.buf.wf = true)
    (hr : ∀ c ∈ s.buf, c.1 < s.cfg.cap) : t.buf.wf = true ∧ ∀ c ∈ t.buf, c.1 < t.cfg.cap := by
  rw [hc]
  obtain hbuf | ⟨x, b, hx, hbuf⟩ := h
  · rw [hbuf]
    exact ⟨hw, hr⟩
  · rw [hbuf]
    refine ⟨Memory.wf_write x b hw, fun c hcell => ?_⟩
    obtain hnew | hold := Memory.mem_write hcell
    · rwa [hnew]
    · exact hr c hold

/-- A reported frame is no longer than the capacity (R22). -/
theorem State.Reports.length_le_cap {s : State} (h : s.Reports) (hr : s.ready = true) (hc : s.cfg.Legal) :
    s.length.toNat ≤ s.cfg.cap := by
  have hrep := h hr
  cases hp : s.cfg.proto with
  | imu =>
    obtain ⟨hcap, -⟩ := hc.imu_fields hp
    rw [hp] at hrep
    obtain ⟨-, hlen⟩ := hrep
    omega
  | gps =>
    obtain ⟨hcap, -⟩ := hc.gps_fields hp
    rw [hp] at hrep
    obtain ⟨-, -, hlen⟩ := hrep
    omega

/-- The selected byte operation, run with `ready` cleared, keeps the invariant: the store is in range, `length` changes only to
that of a reported frame, and `ready` is set only with the cursor at rest. -/
theorem runByteOp_decoderInv {op : ByteOp} {s t : State} (h : DecoderInv s) (hr : s.ready = false) (ho : s.selectOp = .ok op)
    (hrun : runByteOp op s = .next t) : DecoderInv t := by
  obtain ⟨hcur, hrep⟩ := runByteOp_reportInv h.cursorInv hr ho hrun
  have hcfg := (runByteOp_tookByte hrun).cfg
  obtain ⟨hwf, hrange⟩ := (runByteOp_storesInRange hrun).buf_ok hcfg h.bufWf h.bufRange
  refine ⟨hcur, hwf, hrange, ?_, fun hready => ?_⟩
  · obtain hlen | hready := runByteOp_length hrun
    · rw [hlen, hcfg]
      exact h.lengthCap
    · exact hrep.length_le_cap hready hcur.legal
  · obtain hsame | hdone := runByteOp_report hrun
    · obtain ⟨-, hkept⟩ := report_eq_iff.1 hsame
      simp [hkept, hr] at hready
    · exact hdone.atRest

theorem stepByte_decoderInv {b : Byte} {s t : State} (h : DecoderInv s) (hrun : stepByte b s = .next t) : DecoderInv t := by
  obtain ⟨op, ho, hrun⟩ := stepByte_eq_next hrun
  have hclear : DecoderInv { s.clearFlags with byteIn := some b } :=
    .of_not_ready (h.cursorInv.congr rfl rfl rfl rfl rfl) h.bufWf h.bufRange h.lengthCap rfl
  exact runByteOp_decoderInv hclear rfl ho hrun

/-! ### ACQUIRE -/

theorem endAcquire_inv {s : State} (h : DecoderInv s) (hb : s.byteIn = none) (r : AcqResult) : (s.endAcquire r).Inv :=
  (h.congr (sameDecoder_endAcquire s r) rfl).inv_of_idle hb rfl

/-- The budget test leaves an ACQUIRE in progress only with attempts left (R174). -/
theorem testBudget_inv {s : State} {n : Half} (h : DecoderInv s) (hb : s.byteIn = none) (hn : s.budget = some n)
    (hr : s.ready = false) : (s.testBudget n).Inv := by
  unfold State.testBudget
  split
  · next hlt =>
    refine h.inv hb fun m hm => ⟨?_, hr⟩
    obtain rfl : n = m := Option.some.inj (hn.symm.trans hm)
    exact hlt
  · exact endAcquire_inv h hb .noFrame

theorem readAttempt_inv {a : ReadAnswer} {s t : State} (h : s.Inv) (hrun : readAttempt a s = .next t) : t.Inv := by
  have hcount : DecoderInv { s with attempts := s.attempts + 1#16 } :=
    h.decoderInv.congr ⟨rfl, rfl, rfl, rfl, rfl, rfl, rfl, rfl⟩ rfl
  obtain ⟨hb, n, hn, ⟨-, rfl⟩ | ⟨-, rfl⟩ | ⟨b, u, -, hu, rfl⟩⟩ := readAttempt_eq_next hrun
  · exact endAcquire_inv hcount hb _
  · split
    · exact endAcquire_inv hcount hb _
    · exact testBudget_inv hcount hb hn (h.acquiring n hn).2
  · have hstep := stepByte_decoderInv hcount hu
    have htook := stepByte_tookByte hu
    split
    · exact endAcquire_inv hstep htook.byteIn _
    · next hr => exact testBudget_inv hstep htook.byteIn (htook.budget.trans hn) (by simpa using hr)

/-- The words on the interfaces are outside the invariant. -/
theorem State.Inv.set_interfaces {s : State} (h : s.Inv) (cs : List CmdWord) (ws : List RdWord) (k : Nat) :
    State.Inv { s with commands := cs, source := ws, freeReads := k } :=
  ⟨h.legal, h.bufWf, h.bufRange, h.cursor, h.lengthOk, h.lengthCap, h.latch, h.acquiring, h.readyAtRest⟩

theorem acquireLoop_inv {ws : List RdWord} {s t : State} (h : s.Inv) (hrun : acquireLoop ws s = .next t) : t.Inv :=
  acquireLoop_induct (fun _ _ _ hs hrun => readAttempt_inv hs hrun) (fun u ws hs => hs.set_interfaces u.commands ws u.freeReads)
    ws s t h hrun

/-- ACQUIRE's start (R179) keeps the invariant. -/
theorem beginAcquire_inv {s : State} (h : s.Inv) (hs : s.busy = false) (n : Half) : ((s.beginAcquire n).testBudget n).Inv := by
  obtain ⟨-, hb⟩ := busy_eq_false_iff.1 hs
  have hbegin : DecoderInv (s.beginAcquire n) :=
    .of_not_ready ((inv_cursorInv h).congr rfl rfl rfl rfl rfl) h.bufWf h.bufRange h.lengthCap rfl
  exact testBudget_inv hbegin hb rfl rfl

/-! ### Every step -/

theorem commandStep_inv {s t : State} (h : s.Inv) (hs : s.busy = false) (hrun : CommandStep s t) : t.Inv := by
  obtain ⟨hn, hb⟩ := busy_eq_false_iff.1 hs
  cases hrun with
  | idle => exact h
  | step b t hrun =>
    have htook := stepByte_tookByte hrun
    exact (stepByte_decoderInv h.decoderInv hrun).inv_of_idle htook.byteIn (htook.budget.trans hn)
  | acquire n t hrun => exact acquireLoop_inv (beginAcquire_inv h hs n) hrun
  | reset => exact (resetRegisters_decoderInv h.legal).inv_of_idle hb hn

/-- A due byte operation runs with `ready` cleared and no ACQUIRE in progress, by the latch clause. -/
theorem runByteOp_inv {op : ByteOp} {s t : State} (h : s.Inv) (hb : s.byteIn.isSome = true) (ho : s.selectOp = .ok op)
    (hrun : runByteOp op s = .next t) : t.Inv := by
  obtain ⟨hr, -, hn⟩ := h.latch hb
  have htook := runByteOp_tookByte hrun
  exact (runByteOp_decoderInv h.decoderInv hr ho hrun).inv_of_idle htook.byteIn (htook.budget.trans hn)

/-- Settles O41: by cases on what the step does. -/
theorem everyStepKeepsTheInvariant : Obligations.EveryStepKeepsTheInvariant := by
  unfold Obligations.EveryStepKeepsTheInvariant
  intro s t h hstep
  obtain ⟨hb, op, ho, hrun⟩ | ⟨a, ws, k, hrun⟩ | ⟨hs, ws, hrun⟩ := step_eq_next hstep
  · exact runByteOp_inv h hb ho hrun
  · exact readAttempt_inv (h.set_interfaces s.commands ws k) hrun
  · exact commandStep_inv (h.set_interfaces ws s.source s.freeReads) hs hrun

end Sys2Proof.Machine

/-! A legal block never faults, and it stops only on a word that has no operation (R27 (e), R54, R78). -/

namespace Sys2Proof.Machine

/-! ### Every buffer access is in range -/

/-- Header, payload and trailer of a frame fit the capacity. -/
theorem payloadLen_le_cap {s : State} (hc : s.cfg.Legal) (hl : s.cfg.proto = .gps → s.lengthAdmitted = true) :
    s.cfg.hdrLen + s.payloadLen + s.cfg.trlLen ≤ s.cfg.cap := by
  cases hp : s.cfg.proto with
  | imu =>
    obtain ⟨hcap, -, hhdr, htrl, -, -, -, -, -, hpay⟩ := hc.imu_fields hp
    simp [State.payloadLen, hp, hpay, hhdr, htrl, hcap]
  | gps =>
    obtain ⟨hcap, -⟩ := hc.gps_fields hp
    obtain ⟨-, hfit⟩ := payloadLen_bounds hc hl
    omega

/-- The cursor invariant admits a byte operation in every stage. -/
theorem CursorInv.selectOp_isOk {s : State} (h : CursorInv s) : ∃ op, s.selectOp = .ok op := by
  cases hs : s.stage with
  | sync =>
    obtain ⟨hi, -⟩ := h.sync hs
    have hlen : s.cfg.syncSeq.length = s.cfg.syncLen :=
      legal_forall (P := fun c => c.syncSeq.length = c.syncLen) (by decide) (by decide) h.legal
    rw [← hlen] at hi
    refine ⟨.sync s.cfg.syncSeq[s.byteIndex.toNat], (selectOp_eq_ok_iff_entryOp (.inl hs) _).2 ?_⟩
    rw [entryOp_sync h.legal _ (hlen ▸ hi), List.getElem?_eq_getElem hi, Option.map_some]
  | header =>
    have hin : s.inEntry = true := by
      have hcur := h.cursor
      simp only [State.cursorOk, hs, Bool.and_eq_true] at hcur
      exact hcur.2
    obtain ⟨op, ho, -⟩ := (inEntry_iff s).1 hin
    exact ⟨op, ho⟩
  | payload => exact ⟨_, selectOp_of_payload h.legal hs⟩
  | trailer => exact ⟨_, selectOp_of_trailer h.legal hs⟩

/-- R27 (e): the offsets `byteIndex` and `byteIndex + subIndex` are below the capacity. -/
theorem CursorInv.inRange {s : State} (h : CursorInv s) : s.byteIndex.toNat + s.subIndex.toNat < s.cfg.cap := by
  obtain ⟨-, hsh, -, hcap, -⟩ := h.legal.bounds
  cases hs : s.stage with
  | sync =>
    obtain ⟨hi, hj⟩ := h.sync hs
    rw [hj, BitVec.toNat_ofNat]
    omega
  | header =>
    obtain ⟨op, ho⟩ := h.selectOp_isOk
    obtain ⟨hat, hj⟩ := h.header hs ho
    obtain ⟨-, hw⟩ := opWidth_bounds op
    have hup := hat.upper
    omega
  | payload =>
    obtain ⟨-, hi, hj, hl⟩ := h.payload hs
    have hfit := payloadLen_le_cap h.legal hl
    rw [hj, BitVec.toNat_ofNat]
    omega
  | trailer =>
    obtain ⟨hi, hj, hl⟩ := h.trailer hs
    have hfit := payloadLen_le_cap h.legal hl
    omega

/-! ### Every byte operation and every read attempt answers -/

theorem storeByte_answers {a : Nat} {b : Byte} {s : State} {k : State → Result} (h : a < s.cfg.cap)
    (hk : ∀ u, ∃ t, k u = .next t) : ∃ t, storeByte a b s k = .next t := by
  rw [storeByte_of_lt h]
  exact hk _

theorem accumulate_answers {w : Nat} {fin : State → State} {s : State} {b : Byte} (hb : s.byteIn = some b)
    (h : s.byteIndex.toNat + s.subIndex.toNat < s.cfg.cap) : ∃ t, accumulate w fin s = .next t := by
  rw [accumulate, takeInput_some hb]
  exact storeByte_answers h fun u => ⟨_, rfl⟩

theorem copyPayload_answers {n : State → Nat} {s : State} {b : Byte} (hb : s.byteIn = some b)
    (h : s.byteIndex.toNat < s.cfg.cap) : ∃ t, copyPayload n s = .next t := by
  rw [copyPayload, takeInput_some hb]
  exact storeByte_answers h fun u => ⟨_, rfl⟩

/-- A byte operation with its byte and its offset in range completes, whatever the byte (R78). -/
theorem runByteOp_answers (op : ByteOp) {s : State} {b : Byte} (hb : s.byteIn = some b)
    (h : s.byteIndex.toNat + s.subIndex.toNat < s.cfg.cap) : ∃ t, runByteOp op s = .next t := by
  have hi : s.byteIndex.toNat < s.cfg.cap := (Nat.le_add_right _ _).trans_lt h
  cases op with
  | sync c =>
    rw [runByteOp, execSync, takeInput_some hb]
    split
    · exact storeByte_answers hi fun u => ⟨_, rfl⟩
    · exact ⟨_, rfl⟩
  | cver c =>
    rw [runByteOp, execCver, takeInput_some hb]
    split
    · exact storeByte_answers hi fun u => ⟨_, rfl⟩
    · exact ⟨_, rfl⟩
  | pass =>
    rw [runByteOp, execPass, takeInput_some hb]
    exact storeByte_answers hi fun u => ⟨_, rfl⟩
  | acc16 d =>
    rw [runByteOp, execAcc16]
    exact accumulate_answers hb h
  | acc32 d =>
    rw [runByteOp, execAcc32]
    exact accumulate_answers hb h
  | acclen => exact accumulate_answers hb h
  | skip =>
    rw [runByteOp, execSkip, takeInput_some hb]
    exact ⟨_, rfl⟩
  | payf n => exact copyPayload_answers hb hi
  | payv => exact copyPayload_answers hb hi
  | tsum =>
    rw [runByteOp, execTsum, takeInput_some hb]
    refine storeByte_answers hi fun u => ?_
    dsimp only
    split <;> exact ⟨_, rfl⟩
  | tcrc =>
    rw [runByteOp, execTcrc, takeInput_some hb]
    exact storeByte_answers h fun u => ⟨_, rfl⟩

theorem stepByte_answers {s : State} (h : CursorInv s) (b : Byte) : ∃ t, stepByte b s = .next t := by
  obtain ⟨op, ho⟩ := h.selectOp_isOk
  rw [stepByte_of_selectOp ho]
  exact runByteOp_answers op (b := b) rfl h.inRange

/-- While an ACQUIRE waits, no byte operation is due (R244). -/
theorem State.Inv.byteIn_eq_none {s : State} (h : s.Inv) (hn : s.budget.isSome = true) : s.byteIn = none := by
  by_contra hb
  obtain ⟨-, -, hnone⟩ := h.latch (Option.isSome_iff_ne_none.2 hb)
  simp [hnone] at hn

theorem readAttempt_answers {s : State} (h : s.Inv) (hn : s.budget.isSome = true) (a : ReadAnswer) :
    ∃ t, readAttempt a s = .next t := by
  unfold readAttempt
  rw [if_neg (by simp [h.byteIn_eq_none hn])]
  split
  · next hnone => simp [hnone] at hn
  · cases a with
    | error => exact ⟨_, rfl⟩
    | timeout => exact ⟨_, rfl⟩
    | byte b =>
      obtain ⟨u, hu⟩ := stepByte_answers (s := { s with attempts := s.attempts + 1#16 })
        ((inv_cursorInv h).congr rfl rfl rfl rfl rfl) b
      dsimp only
      rw [hu]
      exact ⟨_, rfl⟩

/-! ### Where a step stops -/

/-- A word waiting on an interface has no operation: a command word other than "no command", or an answer on hand (R83, R88). -/
def State.HoldsIllegalWord (s : State) : Prop :=
  (∃ w ∈ s.commands, ∃ why, why ≠ .noCommand ∧ decode (.command w) = .error why) ∨
    ∃ w ∈ s.source, ∃ why, decode (.outcome w) = .error why

/-- An outcome is a next state, or a refusal of a word waiting on an interface of `s`. -/
def AnswersOrRejects (s : State) (o : Result) : Prop :=
  (∃ t, o = .next t) ∨ (∃ why, o = .refused (.illegalWord why)) ∧ s.HoldsIllegalWord

theorem decode_command_of_noCommand {w : CmdWord} (h : w.extractLsb' 16 2 = 0#2) : decode (.command w) = .error .noCommand := by
  rw [decode, decodeCommand, if_pos h]

theorem decode_outcome_eq_error {w : RdWord} {why : DecodeReject} (h : decodeAnswer w = .error why) :
    decode (.outcome w) = .error why := by
  rw [decode, h]
  rfl

/-- The word of an answer decodes to the answer (R88). -/
theorem decodeAnswer_word (a : ReadAnswer) : decodeAnswer a.word = .ok a := by
  cases a with
  | byte b => revert b; decide
  | timeout => rfl
  | error => rfl

/-- ACQUIRE's loop runs to its end or waits, unless an answer on hand has no operation. -/
theorem acquireLoop_answers {ws : List RdWord} {s : State} (h : s.Inv) :
    (∃ t, acquireLoop ws s = .next t) ∨
      (∃ why, acquireLoop ws s = .refused (.illegalWord why)) ∧ ∃ w ∈ ws, ∃ why, decode (.outcome w) = .error why := by
  induction ws generalizing s with
  | nil => exact .inl ⟨_, rfl⟩
  | cons w ws ih =>
    rw [acquireLoop]
    split
    · exact .inl ⟨_, rfl⟩
    · next hn =>
      cases hw : decodeAnswer w with
      | error why => exact .inr ⟨⟨why, rfl⟩, w, List.mem_cons_self, why, decode_outcome_eq_error hw⟩
      | ok a =>
        have hs : State.Inv { s with source := ws } := h.set_interfaces s.commands ws s.freeReads
        obtain ⟨u, hu⟩ := readAttempt_answers hs (by simpa [Option.isSome_iff_ne_none] using hn) a
        dsimp only
        rw [hu, andThen_next]
        obtain hnext | ⟨hstop, v, hv, hbad⟩ := ih (readAttempt_inv hs hu)
        · exact .inl hnext
        · exact .inr ⟨hstop, v, List.mem_cons_of_mem w hv, hbad⟩

theorem exec_command_answers {w : CmdWord} {i : Instr} {s : State} (h : s.Inv) (hs : s.busy = false)
    (hw : decode (.command w) = .ok i) : AnswersOrRejects s (exec i s) := by
  obtain ⟨b, rfl⟩ | ⟨n, rfl⟩ | rfl := decode_command_eq_ok hw
  · rw [exec, execStep, hs]
    exact .inl (stepByte_answers (inv_cursorInv h) b)
  · rw [exec, execAcquire, hs]
    obtain hnext | ⟨hstop, hbad⟩ := acquireLoop_answers (ws := s.source) (beginAcquire_inv h hs n)
    · exact .inl hnext
    · exact .inr ⟨hstop, .inr hbad⟩
  · rw [exec, execReset, hs]
    exact .inl ⟨_, rfl⟩

/-- A due byte operation completes. -/
theorem step_answers_of_byteIn {s : State} (h : s.Inv) (hb : s.byteIn.isSome = true) : ∃ t, step s = .next t := by
  obtain ⟨b, hb'⟩ := Option.isSome_iff_exists.1 hb
  obtain ⟨op, ho⟩ := (inv_cursorInv h).selectOp_isOk
  rw [step, fetch, if_pos hb, fetchByteOp, ho]
  dsimp only
  rw [exec_byteOp]
  exact runByteOp_answers op hb' (inv_cursorInv h).inRange

/-- ByteSource's next answer is a word on hand, or it decodes. -/
theorem takeAnswer_word (s : State) : s.takeAnswer.1 ∈ s.source ∨ ∃ a, decodeAnswer s.takeAnswer.1 = .ok a := by
  rw [State.takeAnswer]
  split
  · next w ws hsrc => exact .inl (by simp [hsrc])
  · exact .inr ⟨_, decodeAnswer_word _⟩

theorem step_answers_of_budget {s : State} (h : s.Inv) (hn : s.budget.isSome = true) : AnswersOrRejects s (step s) := by
  rw [step, fetch, if_neg (by simp [h.byteIn_eq_none hn]), if_pos hn, fetchAnswer]
  cases hw : decodeAnswer s.takeAnswer.1 with
  | error why =>
    have hmem : s.takeAnswer.1 ∈ s.source := (takeAnswer_word s).resolve_right (by simp [hw])
    rw [decode_outcome_eq_error hw]
    exact .inr ⟨⟨why, rfl⟩, .inr ⟨_, hmem, why, decode_outcome_eq_error hw⟩⟩
  | ok a =>
    obtain ⟨ws, k, hu⟩ := takeAnswer_state s
    have hdec : decode (.outcome s.takeAnswer.1) = .ok a.toInstr := by
      rw [decode, hw]
      rfl
    rw [hdec, hu]
    dsimp only
    rw [exec_readAnswer]
    exact .inl (readAttempt_answers (h.set_interfaces s.commands ws k) hn a)

theorem step_answers_of_not_busy {s : State} (h : s.Inv) (hs : s.busy = false) : AnswersOrRejects s (step s) := by
  obtain ⟨hn, hb⟩ := busy_eq_false_iff.1 hs
  rw [step, fetch, if_neg (by simp [hb]), if_neg (by simp [hn]), fetchCommand]
  cases hc : s.commands with
  | nil => exact .inl ⟨s, rfl⟩
  | cons w ws =>
    dsimp only
    cases hw : decode (.command w) with
    | ok i =>
      have hu : State.Inv { s with commands := ws } := h.set_interfaces ws s.source s.freeReads
      obtain hnext | ⟨hstop, hbad⟩ := exec_command_answers hu hs hw
      · exact .inl hnext
      · refine .inr ⟨hstop, ?_⟩
        obtain ⟨v, hv, hbad⟩ | hbad := hbad
        · exact .inl ⟨v, by rw [hc]; exact List.mem_cons_of_mem w hv, hbad⟩
        · exact .inr hbad
    | error why =>
      by_cases hnone : why = .noCommand
      · subst hnone
        exact .inl ⟨_, rfl⟩
      · exact .inr ⟨⟨why, by simp⟩, .inl ⟨w, by simp [hc], why, hnone, hw⟩⟩

/-- From a state with the invariant a step answers a next state, or refuses a word waiting on an interface. -/
theorem step_answers {s : State} (h : s.Inv) : AnswersOrRejects s (step s) := by
  by_cases hb : s.byteIn.isSome = true
  · exact .inl (step_answers_of_byteIn h hb)
  by_cases hn : s.budget.isSome = true
  · exact step_answers_of_budget h hn
  · exact step_answers_of_not_busy h (by simp [State.busy, hb, hn])

/-- With decodable words waiting, no word is illegal. -/
theorem not_holdsIllegalWord {s : State}
    (hcmd : ∀ w ∈ s.commands, w.extractLsb' 16 2 = 0#2 ∨ ∃ i, decode (.command w) = .ok i)
    (hsrc : ∀ w ∈ s.source, ∃ i, decode (.outcome w) = .ok i) : ¬ s.HoldsIllegalWord := by
  rintro (⟨w, hmem, why, hne, hbad⟩ | ⟨w, hmem, why, hbad⟩)
  · obtain hnone | ⟨i, hok⟩ := hcmd w hmem
    · rw [decode_command_of_noCommand hnone] at hbad
      exact hne (Except.error.inj hbad).symm
    · simp [hok] at hbad
  · obtain ⟨i, hok⟩ := hsrc w hmem
    simp [hok] at hbad

/-- Settles O42: a step answers or refuses an illegal word, so it does not fault, and it answers where there is none. -/
theorem legalInstanceNeverFaults : Obligations.LegalInstanceNeverFaults := by
  unfold Obligations.LegalInstanceNeverFaults
  intro s h
  obtain ⟨t, hnext⟩ | ⟨⟨why, hstop⟩, hbad⟩ := step_answers h
  · exact ⟨by simp [hnext], fun _ _ => ⟨t, hnext⟩⟩
  · exact ⟨by simp [hstop], fun hcmd hsrc => absurd hbad (not_holdsIllegalWord hcmd hsrc)⟩

end Sys2Proof.Machine

/-! The little-endian merge (R51). -/

namespace Sys2Proof.Machine

/-- A merged byte string is below the power of 256 of its length. -/
theorem le_lt (bs : List Byte) : le bs < 256 ^ bs.length := by
  induction bs with
  | nil => simp [le]
  | cons b bs ih =>
    have hb : b.toNat < 256 := b.isLt
    rw [le, List.length_cons, pow_succ]
    omega

/-- The byte at position `k` has the weight `256 ^ k`. -/
theorem le_div_mod {bs : List Byte} {k : Nat} {b : Byte} (h : bs[k]? = some b) : le bs / 256 ^ k % 256 = b.toNat := by
  induction bs generalizing k with
  | nil => simp at h
  | cons c bs ih =>
    have hc : c.toNat < 256 := c.isLt
    cases k with
    | zero =>
      obtain rfl : c = b := by simpa using h
      rw [le, pow_zero]
      omega
    | succ k =>
      have hrest : le (c :: bs) / 256 = le bs := by
        rw [le]
        omega
      rw [pow_succ', ← Nat.div_div_eq_div_mul, hrest]
      exact ih (by simpa using h)

/-- Settles O28: by induction on the bytes; dividing by 256 drops the first byte. -/
theorem littleEndianBytePositions : Obligations.LittleEndianBytePositions := by
  unfold Obligations.LittleEndianBytePositions
  exact ⟨fun _ _ _ h => le_div_mod h, le_lt⟩

end Sys2Proof.Machine

/-! What an operation in progress excludes (R63, R221, R244). -/

namespace Sys2Proof.Machine

/-- A read outcome has no meaning with nothing in progress (R182). -/
theorem readAttempt_of_not_busy {s : State} (h : s.busy = false) (a : ReadAnswer) :
    readAttempt a s = .refused .noReadPending := by
  obtain ⟨hn, hb⟩ := busy_eq_false_iff.1 h
  simp [readAttempt, hn, hb]

/-- Settles O27: the commands test `busy`, and a read outcome needs the budget of an ACQUIRE. -/
theorem overlapIsRefused : Obligations.OverlapIsRefused := by
  unfold Obligations.OverlapIsRefused
  intro s
  refine ⟨fun h => ⟨fun b => if_pos h, fun n => if_pos h, if_pos h⟩, fun h => ?_⟩
  exact ⟨fun b => readAttempt_of_not_busy h (.byte b), readAttempt_of_not_busy h .timeout, readAttempt_of_not_busy h .error⟩

end Sys2Proof.Machine

/-! What a byte operation stores (R53). -/

namespace Sys2Proof.Machine

theorem sameBuf_of_buf_eq {s t : State} (h : t.buf = s.buf) : SameBuf s t := fun a => by rw [h]

theorem storedAt_of_write {s t : State} {x : Nat} {b : Byte} (h : t.buf = s.buf.write x b) : StoredAt x b s t := fun a => by
  rw [h, Memory.read_write]

/-- An accumulate entry stores its byte at `byteIndex + subIndex` (R118). -/
theorem accumulate_storedAt {w : Nat} {fin : State → State} {s t : State} {b : Byte} (hb : s.byteIn = some b)
    (hfin : ∀ u, (fin u).buf = u.buf) (h : accumulate w fin s = .next t) :
    StoredAt (s.byteIndex.toNat + s.subIndex.toNat) b s t := by
  obtain ⟨c, hc, -, rfl⟩ := accumulate_eq_next h
  obtain rfl : b = c := Option.some.inj (hb.symm.trans hc)
  refine storedAt_of_write ?_
  split
  · rw [hfin]
  · rfl

/-- A payload byte is stored at `byteIndex` (R130, R131). -/
theorem copyPayload_storedAt {n : State → Nat} {s t : State} {b : Byte} (hb : s.byteIn = some b)
    (h : copyPayload n s = .next t) : StoredAt s.byteIndex.toNat b s t := by
  obtain ⟨c, hc, -, rfl⟩ := copyPayload_eq_next h
  obtain rfl : b = c := Option.some.inj (hb.symm.trans hc)
  exact storedAt_of_write rfl

/-- A byte operation stores what R53 says, and nothing else. -/
theorem runByteOp_storesOnly {op : ByteOp} {s t : State} {b : Byte} (hb : s.byteIn = some b)
    (h : runByteOp op s = .next t) : StoresOnly op b s t := by
  have hbyte : ∀ {c : Byte}, s.byteIn = some c → c = b := fun hc => Option.some.inj (hc.symm.trans hb)
  cases op with
  | sync c =>
    obtain ⟨b', hb', ⟨heq, -, rfl⟩ | ⟨hne, rfl⟩⟩ := execSync_eq_next h <;> obtain rfl := hbyte hb'
    · exact ⟨fun _ => storedAt_of_write rfl, fun hne => absurd heq hne⟩
    · exact ⟨fun heq => absurd heq hne, fun _ => sameBuf_of_buf_eq rfl⟩
  | cver c =>
    obtain ⟨b', hb', ⟨heq, -, rfl⟩ | ⟨hne, rfl⟩⟩ := execCver_eq_next h <;> obtain rfl := hbyte hb'
    · exact ⟨fun _ => storedAt_of_write rfl, fun hne => absurd heq hne⟩
    · exact ⟨fun heq => absurd heq hne, fun _ => sameBuf_of_buf_eq rfl⟩
  | pass =>
    obtain ⟨b', hb', -, rfl⟩ := execPass_eq_next h
    obtain rfl := hbyte hb'
    exact storedAt_of_write rfl
  | acc16 d => exact accumulate_storedAt hb (by simp) (show execAcc16 d s = .next t from h)
  | acc32 d => exact accumulate_storedAt hb (by simp) (show execAcc32 d s = .next t from h)
  | acclen => exact accumulate_storedAt hb finishLength_buf h
  | skip =>
    obtain ⟨b', -, rfl⟩ := execSkip_eq_next h
    split <;> exact sameBuf_of_buf_eq rfl
  | payf n => exact copyPayload_storedAt hb h
  | payv => exact copyPayload_storedAt hb h
  | tsum =>
    obtain ⟨b', hb', -, ⟨-, rfl⟩ | ⟨-, rfl⟩⟩ := execTsum_eq_next h <;> obtain rfl := hbyte hb' <;>
      exact storedAt_of_write rfl
  | tcrc =>
    obtain ⟨b', hb', -, rfl⟩ := execTcrc_eq_next h
    obtain rfl := hbyte hb'
    split <;> exact storedAt_of_write rfl

/-- A STEP is its byte operation on a state with the same buffer and cursor. -/
theorem stepByte_storesOnly {b : Byte} {s t : State} (h : stepByte b s = .next t) :
    ∃ op, s.selectOp = .ok op ∧ StoresOnly op b s t := by
  obtain ⟨op, ho, hrun⟩ := stepByte_eq_next h
  exact ⟨op, ho, runByteOp_storesOnly (s := { s.clearFlags with byteIn := some b }) rfl hrun⟩

theorem execStep_eq_next {b : Byte} {s t : State} (h : execStep b s = .next t) : stepByte b s = .next t := by
  rw [execStep] at h
  split at h
  · cases h
  · exact h

/-- Settles O34: by cases on the operation; a STEP's is the one its cursor selects. -/
theorem byteOperationsStoreAtMostOneByte : Obligations.ByteOperationsStoreAtMostOneByte := by
  unfold Obligations.ByteOperationsStoreAtMostOneByte
  refine ⟨fun op b s t hb h => ?_, fun b s t h => stepByte_storesOnly (execStep_eq_next h)⟩
  rw [exec_byteOp] at h
  exact runByteOp_storesOnly hb h

end Sys2Proof.Machine

/-! What every machine step keeps of the decoder: a rule over ACQUIRE's bookkeeping, the selected byte operation and RESET. -/

namespace Sys2Proof.Machine

/-- `t` has the parameters, cursor, buffer and field registers of `s`, and `ready` only if `s` had it: what clearing the flags
and an ACQUIRE's bookkeeping leave alone. -/
structure SameFrame (s t : State) : Prop where
  cfg : t.cfg = s.cfg
  stage : t.stage = s.stage
  byteIndex : t.byteIndex = s.byteIndex
  subIndex : t.subIndex = s.subIndex
  buf : t.buf = s.buf
  fields : SameFields s t
  ready : t.ready = true → s.ready = true

theorem sameFrame_endAcquire (s : State) (r : AcqResult) : SameFrame s (s.endAcquire r) :=
  ⟨rfl, rfl, rfl, rfl, rfl, fun _ => rfl, id⟩

theorem sameFrame_testBudget (s : State) (n : Half) : SameFrame s (s.testBudget n) := by
  unfold State.testBudget
  split
  · exact ⟨rfl, rfl, rfl, rfl, rfl, fun _ => rfl, id⟩
  · exact sameFrame_endAcquire s .noFrame

theorem sameFrame_beginAcquire (s : State) (n : Half) : SameFrame s (s.beginAcquire n) :=
  ⟨rfl, rfl, rfl, rfl, rfl, fun _ => rfl, by simp⟩

theorem sameFrame_clearFlags (s : State) (b : Option Byte) : SameFrame s { s.clearFlags with byteIn := b } :=
  ⟨rfl, rfl, rfl, rfl, rfl, fun _ => rfl, by simp⟩

theorem sameFrame_attempts (s : State) (k : Half) : SameFrame s { s with attempts := k } :=
  ⟨rfl, rfl, rfl, rfl, rfl, fun _ => rfl, id⟩

theorem sameFrame_interfaces (s : State) (cs : List CmdWord) (ws : List RdWord) (k : Nat) :
    SameFrame s { s with commands := cs, source := ws, freeReads := k } :=
  ⟨rfl, rfl, rfl, rfl, rfl, fun _ => rfl, id⟩

/-- The cursor invariant does not speak of anything else. -/
theorem CursorInv.of_sameFrame {s t : State} (h : CursorInv s) (H : SameFrame s t) : CursorInv t :=
  h.congr H.cfg H.stage H.byteIndex H.subIndex (BitVec.eq_of_toNat_eq (H.fields .messageLength))

/-- `P` is kept by the three things a machine step is made of. -/
structure KeptByParts (P : State → Prop) : Prop where
  sameFrame : ∀ {s t}, P s → SameFrame s t → P t
  byteOp : ∀ {op s t}, P s → s.ready = false → s.selectOp = .ok op → runByteOp op s = .next t → P t
  reset : ∀ {s}, P s → P s.resetRegisters

section
variable {P : State → Prop} (hP : KeptByParts P)
include hP

theorem KeptByParts.of_stepByte {b : Byte} {s t : State} (h : P s) (hrun : stepByte b s = .next t) : P t := by
  obtain ⟨op, ho, hrun⟩ := stepByte_eq_next hrun
  exact hP.byteOp (hP.sameFrame h (sameFrame_clearFlags s (some b))) rfl ho hrun

theorem KeptByParts.of_readAttempt {a : ReadAnswer} {s t : State} (h : P s) (hrun : readAttempt a s = .next t) : P t := by
  have hcount := hP.sameFrame h (sameFrame_attempts s (s.attempts + 1#16))
  obtain ⟨-, n, -, ⟨-, rfl⟩ | ⟨-, rfl⟩ | ⟨b, u, -, hu, rfl⟩⟩ := readAttempt_eq_next hrun
  · exact hP.sameFrame hcount (sameFrame_endAcquire _ _)
  · split
    · exact hP.sameFrame hcount (sameFrame_endAcquire _ _)
    · exact hP.sameFrame hcount (sameFrame_testBudget _ _)
  · have hstep := hP.of_stepByte hcount hu
    split
    · exact hP.sameFrame hstep (sameFrame_endAcquire _ _)
    · exact hP.sameFrame hstep (sameFrame_testBudget _ _)

theorem KeptByParts.of_acquireLoop {ws : List RdWord} {s t : State} (h : P s) (hrun : acquireLoop ws s = .next t) : P t :=
  acquireLoop_induct (fun _ _ _ hs hrun => hP.of_readAttempt hs hrun)
    (fun u ws hs => hP.sameFrame hs (sameFrame_interfaces u u.commands ws u.freeReads)) ws s t h hrun

theorem KeptByParts.of_acquire {n : Half} {s t : State} (h : P s)
    (hrun : acquireLoop s.source ((s.beginAcquire n).testBudget n) = .next t) : P t :=
  hP.of_acquireLoop (hP.sameFrame (hP.sameFrame h (sameFrame_beginAcquire s n)) (sameFrame_testBudget _ n)) hrun

theorem KeptByParts.of_commandStep {s t : State} (h : P s) (hrun : CommandStep s t) : P t := by
  cases hrun with
  | idle => exact h
  | step b t hrun => exact hP.of_stepByte h hrun
  | acquire n t hrun => exact hP.of_acquire h hrun
  | reset => exact hP.reset h

/-- A machine step keeps `P`, if a byte operation that is due does. -/
theorem KeptByParts.of_step {s t : State} (h : P s)
    (hdue : ∀ op, s.byteIn.isSome = true → s.selectOp = .ok op → runByteOp op s = .next t → P t)
    (hstep : step s = .next t) : P t := by
  obtain ⟨hb, op, ho, hrun⟩ | ⟨a, ws, k, hrun⟩ | ⟨-, ws, hrun⟩ := step_eq_next hstep
  · exact hdue op hb ho hrun
  · exact hP.of_readAttempt (hP.sameFrame h (sameFrame_interfaces s s.commands ws k)) hrun
  · exact hP.of_commandStep (hP.sameFrame h (sameFrame_interfaces s ws s.source s.freeReads)) hrun

/-- From a state with the invariant a byte operation that is due finds `ready` cleared, so every machine step keeps `P`. -/
theorem KeptByParts.of_step_of_inv {s t : State} (hinv : s.Inv) (h : P s) (hstep : step s = .next t) : P t := by
  refine hP.of_step h (fun op hb ho hrun => ?_) hstep
  obtain ⟨hr, -⟩ := hinv.latch hb
  exact hP.byteOp h hr ho hrun

end

/-! ### The parameters (R34, R64) -/

theorem keptByParts_cfg (c : Config) : KeptByParts fun s => s.cfg = c where
  sameFrame h H := H.cfg.trans h
  byteOp h _ _ hrun := (runByteOp_tookByte hrun).cfg.trans h
  reset h := h

/-- An instruction is a byte operation, a read outcome or a host command. -/
theorem instr_cases (i : Instr) :
    (∃ op : ByteOp, i = op.toInstr) ∨ (∃ a : ReadAnswer, i = a.toInstr) ∨
      (∃ b, i = .step b) ∨ (∃ n, i = .acquire n) ∨ i = .reset := by
  cases i with
  | sync c => exact .inl ⟨.sync c, rfl⟩
  | cver c => exact .inl ⟨.cver c, rfl⟩
  | pass => exact .inl ⟨.pass, rfl⟩
  | acc16 d => exact .inl ⟨.acc16 d, rfl⟩
  | acc32 d => exact .inl ⟨.acc32 d, rfl⟩
  | acclen => exact .inl ⟨.acclen, rfl⟩
  | skip => exact .inl ⟨.skip, rfl⟩
  | payf n => exact .inl ⟨.payf n, rfl⟩
  | payv => exact .inl ⟨.payv, rfl⟩
  | tsum => exact .inl ⟨.tsum, rfl⟩
  | tcrc => exact .inl ⟨.tcrc, rfl⟩
  | rdByte b => exact .inr (.inl ⟨.byte b, rfl⟩)
  | rdTimeout => exact .inr (.inl ⟨.timeout, rfl⟩)
  | rdError => exact .inr (.inl ⟨.error, rfl⟩)
  | step b => exact .inr (.inr (.inl ⟨b, rfl⟩))
  | acquire n => exact .inr (.inr (.inr (.inl ⟨n, rfl⟩)))
  | reset => exact .inr (.inr (.inr (.inr rfl)))

theorem execAcquire_eq_next {n : Half} {s t : State} (h : execAcquire n s = .next t) :
    acquireLoop s.source ((s.beginAcquire n).testBudget n) = .next t := by
  rw [execAcquire] at h
  split at h
  · cases h
  · exact h

theorem execReset_eq_next {s t : State} (h : execReset s = .next t) : t = s.resetRegisters := by
  rw [execReset] at h
  split at h
  · cases h
  · exact (Host.Outcome.next.inj h).symm

theorem exec_cfg {i : Instr} {s t : State} (h : exec i s = .next t) : t.cfg = s.cfg := by
  have hP := keptByParts_cfg s.cfg
  obtain ⟨op, rfl⟩ | ⟨a, rfl⟩ | ⟨b, rfl⟩ | ⟨n, rfl⟩ | rfl := instr_cases i
  · rw [exec_byteOp] at h
    exact (runByteOp_tookByte h).cfg
  · rw [exec_readAnswer] at h
    exact hP.of_readAttempt rfl h
  · exact hP.of_stepByte rfl (execStep_eq_next h)
  · exact hP.of_acquire rfl (execAcquire_eq_next h)
  · rw [execReset_eq_next h, State.resetRegisters_cfg]

/-- Settles O35: nothing an instruction or a machine step is made of writes the parameters. -/
theorem noOperationWritesTheDescriptor : Obligations.NoOperationWritesTheDescriptor := by
  unfold Obligations.NoOperationWritesTheDescriptor
  refine ⟨fun i s t h => exec_cfg h, fun s t h => ?_⟩
  exact (keptByParts_cfg s.cfg).of_step rfl (fun _ _ _ hrun => (runByteOp_tookByte hrun).cfg) h

end Sys2Proof.Machine

/-! GPS cells 24 and 25 and the field registers of the IMU format are never written (R10, R57). -/

namespace Sys2Proof.Machine

/-! ### What is selected, by the offset -/

/-- Below `HDRLEN` the selected operation is a table entry's, from there on the payload's or the trailer's. -/
theorem CursorInv.selected {s : State} {op : ByteOp} (h : CursorInv s) (ho : s.selectOp = .ok op) :
    (s.byteIndex.toNat < s.cfg.hdrLen ∧ entryOp s.cfg.entries s.byteIndex.toNat = some op) ∨
      (s.cfg.hdrLen ≤ s.byteIndex.toNat ∧ (op = payloadOp s.cfg.proto ∨ op = trailerOp s.cfg.proto)) := by
  cases hs : s.stage with
  | sync =>
    obtain ⟨hi, -⟩ := h.sync hs
    obtain ⟨-, hsh, -⟩ := h.legal.bounds
    exact .inl ⟨hi.trans hsh, (selectOp_eq_ok_iff_entryOp (.inl hs) op).1 ho⟩
  | header =>
    obtain ⟨hat, -⟩ := h.header hs ho
    exact .inl ⟨hat.upper, hat.entry⟩
  | payload =>
    obtain ⟨hi, -⟩ := h.payload hs
    exact .inr ⟨hi, .inl (Except.ok.inj (ho.symm.trans (selectOp_of_payload h.legal hs)))⟩
  | trailer =>
    obtain ⟨hi, -⟩ := h.trailer hs
    exact .inr ⟨by omega, .inr (Except.ok.inj (ho.symm.trans (selectOp_of_trailer h.legal hs)))⟩

/-- The subindex is below the width of the selected operation (R27 (b), (d)). -/
theorem CursorInv.subIndex_lt {s : State} {op : ByteOp} (h : CursorInv s) (ho : s.selectOp = .ok op) :
    s.subIndex.toNat < opWidth op := by
  obtain ⟨hw, -⟩ := opWidth_bounds op
  cases hs : s.stage with
  | sync =>
    obtain ⟨-, hj⟩ := h.sync hs
    rw [hj]
    exact hw
  | header =>
    obtain ⟨-, hj⟩ := h.header hs ho
    exact hj
  | payload =>
    obtain ⟨-, -, hj, -⟩ := h.payload hs
    rw [hj]
    exact hw
  | trailer =>
    obtain ⟨-, hj, -⟩ := h.trailer hs
    obtain rfl := Except.ok.inj (ho.symm.trans (selectOp_of_trailer h.legal hs))
    have htrl : s.cfg.trlLen = opWidth (trailerOp s.cfg.proto) :=
      legal_forall (P := fun c => c.trlLen = opWidth (trailerOp c.proto)) (by decide) (by decide) h.legal
    exact htrl ▸ hj

/-! ### The range of a byte operation's store -/

/-- A byte operation stores nothing, or its byte at one of the two offsets of R53. -/
theorem StoresOnly.sameBuf_or_storedAt {op : ByteOp} {b : Byte} {s t : State} (h : StoresOnly op b s t) :
    SameBuf s t ∨ StoredAt s.byteIndex.toNat b s t ∨ StoredAt (s.byteIndex.toNat + s.subIndex.toNat) b s t := by
  cases op with
  | sync c | cver c =>
    obtain ⟨heq, hne⟩ := h
    by_cases hc : b = c
    · exact .inr (.inl (heq hc))
    · exact .inl (hne hc)
  | skip => exact .inl h
  | pass | payf _ | payv | tsum => exact .inr (.inl h)
  | acc16 _ | acc32 _ | acclen | tcrc => exact .inr (.inr h)

/-- Every byte operation takes the accepted byte (R100). -/
theorem runByteOp_of_byteIn_none {s : State} (h : s.byteIn = none) (op : ByteOp) :
    runByteOp op s = .refused .noInputByte := by
  cases op <;> simp only [runByteOp, execSync, execCver, execPass, execAcc16, execAcc32, execAcclen, execSkip, execPayf,
    execPayv, execTsum, execTcrc, accumulate, copyPayload, takeInput_none h]

theorem runByteOp_byteIn {op : ByteOp} {s t : State} (h : runByteOp op s = .next t) : ∃ b, s.byteIn = some b := by
  cases hb : s.byteIn with
  | none => simp [runByteOp_of_byteIn_none hb] at h
  | some b => exact ⟨b, rfl⟩

/-- The cells outside the entry at `byteIndex` are kept. -/
theorem runByteOp_read_outside {op : ByteOp} {s t : State} (h : CursorInv s) (ho : s.selectOp = .ok op)
    (hrun : runByteOp op s = .next t) {x : Nat} (hx : x < s.byteIndex.toNat ∨ s.byteIndex.toNat + opWidth op ≤ x) :
    t.buf.read x = s.buf.read x := by
  have hj := h.subIndex_lt ho
  obtain ⟨b, hb⟩ := runByteOp_byteIn hrun
  obtain hsame | hst | hst := (runByteOp_storesOnly hb hrun).sameBuf_or_storedAt
  · exact hsame x
  · rw [hst x, if_neg (by omega)]
  · rw [hst x, if_neg (by omega)]

/-! ### The skipped cells -/

/-- The only entry of R87 at offsets 24 and 25 is SKIP. -/
theorem gpsEntry_skips {c : Config} (hc : c.Legal) (hp : c.proto = .gps) :
    ∀ i < 28, ∀ op ∈ entryOp c.entries i, op = .skip ∨ i + opWidth op ≤ 24 ∨ 26 ≤ i := by
  obtain ⟨-, -, -, -, -, hentries, -⟩ := hc.gps_fields hp
  rw [hentries]
  decide

theorem runByteOp_read_skipped {op : ByteOp} {s t : State} (h : CursorInv s) (hp : s.cfg.proto = .gps)
    (ho : s.selectOp = .ok op) (hrun : runByteOp op s = .next t) {x : Nat} (hx : x = 24 ∨ x = 25) :
    t.buf.read x = s.buf.read x := by
  obtain ⟨-, -, hhdr, -⟩ := h.legal.gps_fields hp
  obtain ⟨hi, hentry⟩ | ⟨hi, -⟩ := h.selected ho
  · obtain rfl | hlow | hhigh := gpsEntry_skips h.legal hp _ (hhdr ▸ hi) op hentry
    · obtain ⟨b, hb⟩ := runByteOp_byteIn hrun
      exact runByteOp_storesOnly hb hrun x
    · exact runByteOp_read_outside h ho hrun (.inr (by omega))
    · exact runByteOp_read_outside h ho hrun (.inl (by omega))
  · exact runByteOp_read_outside h ho hrun (.inl (by omega))

theorem keptByParts_skippedCells : KeptByParts fun s => CursorInv s ∧ s.SkippedCellsReset where
  sameFrame := fun ⟨h, hcells⟩ H => ⟨h.of_sameFrame H, by rwa [State.SkippedCellsReset, H.cfg, H.buf]⟩
  byteOp := fun ⟨h, hcells⟩ _ ho hrun => by
    refine ⟨runByteOp_cursorInv h ho hrun, fun hp => ?_⟩
    rw [(runByteOp_tookByte hrun).cfg] at hp
    rw [runByteOp_read_skipped h hp ho hrun (.inl rfl), runByteOp_read_skipped h hp ho hrun (.inr rfl)]
    exact hcells hp
  reset := fun ⟨h, _⟩ => ⟨(resetRegisters_decoderInv h.legal).cursorInv, fun _ => ⟨rfl, rfl⟩⟩

/-! ### The field registers of the IMU format -/

/-- The register a byte operation writes when its entry is complete (R113 to R115). -/
def writtenField : ByteOp → Option Dest
  | .acc16 d => some d
  | .acc32 d => some d
  | .acclen => some .messageLength
  | .sync _ | .cver _ | .pass | .skip | .payf _ | .payv | .tsum | .tcrc => none

theorem runByteOp_readField_of_ne {op : ByteOp} {s t : State} {d : Dest} (hd : writtenField op ≠ some d)
    (h : runByteOp op s = .next t) : t.readField d = s.readField d := by
  refine runByteOp_readField ?_ ?_ ?_ h
  · rintro rfl
    exact hd rfl
  · rintro rfl
    exact hd rfl
  · rintro rfl rfl
    exact hd rfl

/-- The descriptor of R86 has no accumulate entry. -/
theorem imuEntry_writtenField {c : Config} (hc : c.Legal) (hp : c.proto = .imu) :
    ∀ i < 7, ∀ op ∈ entryOp c.entries i, writtenField op = none := by
  obtain ⟨-, -, -, -, -, hentries, -⟩ := hc.imu_fields hp
  rw [hentries]
  decide

theorem writtenField_payloadOp (p : Proto) : writtenField (payloadOp p) = none := by
  cases p <;> rfl

theorem writtenField_trailerOp (p : Proto) : writtenField (trailerOp p) = none := by
  cases p <;> rfl

theorem imu_writtenField {op : ByteOp} {s : State} (h : CursorInv s) (hp : s.cfg.proto = .imu)
    (ho : s.selectOp = .ok op) : writtenField op = none := by
  obtain ⟨-, -, hhdr, -⟩ := h.legal.imu_fields hp
  obtain ⟨hi, hentry⟩ | ⟨-, rfl | rfl⟩ := h.selected ho
  · exact imuEntry_writtenField h.legal hp _ (hhdr ▸ hi) op hentry
  · exact writtenField_payloadOp _
  · exact writtenField_trailerOp _

theorem readField_resetRegisters (s : State) (d : Dest) : s.resetRegisters.readField d = 0 := by
  cases d <;> rfl

theorem keptByParts_imuFields : KeptByParts fun s => CursorInv s ∧ s.ImuFieldsZero where
  sameFrame := fun ⟨h, hzero⟩ H =>
    ⟨h.of_sameFrame H, fun hp d => (H.fields d).trans (hzero (by rwa [← H.cfg]) d)⟩
  byteOp := fun ⟨h, hzero⟩ _ ho hrun => by
    refine ⟨runByteOp_cursorInv h ho hrun, fun hp d => ?_⟩
    rw [(runByteOp_tookByte hrun).cfg] at hp
    rw [runByteOp_readField_of_ne (by simp [imu_writtenField h hp ho]) hrun]
    exact hzero hp d
  reset := fun ⟨h, _⟩ => ⟨(resetRegisters_decoderInv h.legal).cursorInv, fun _ d => readField_resetRegisters _ d⟩

/-- Settles O46: each half is kept by the selected byte operation, by RESET and by an ACQUIRE's bookkeeping. -/
theorem skippedCellsAreNeverWritten : Obligations.SkippedCellsAreNeverWritten := by
  unfold Obligations.SkippedCellsAreNeverWritten
  intro s t hinv hstep
  have hcur := inv_cursorInv hinv
  exact ⟨fun h => (keptByParts_skippedCells.of_step_of_inv hinv ⟨hcur, h⟩ hstep).2,
    fun h => (keptByParts_imuFields.of_step_of_inv hinv ⟨hcur, h⟩ hstep).2⟩

end Sys2Proof.Machine

/-! Each GPS field register agrees with its buffer bytes from the end of its field on (R40, R52, R66). -/

namespace Sys2Proof.Machine

/-! ### The GPS fields -/

/-- A GPS field that has a register: the register, the field's offset and its width in bytes (R73). -/
structure FieldSpan where
  dest : Dest
  offset : Nat
  width : Nat

/-- The first offset after the field. -/
def FieldSpan.finish (f : FieldSpan) : Nat := f.offset + f.width

/-- The seven fields of R73 that have a register (R23). -/
def gpsFields : List FieldSpan :=
  [⟨.messageId, 4, 2⟩, ⟨.messageLength, 8, 2⟩, ⟨.sequenceNumber, 10, 2⟩, ⟨.timeWeek, 14, 2⟩, ⟨.timeMs, 16, 4⟩,
    ⟨.status, 20, 4⟩, ⟨.swVersion, 26, 2⟩]

/-- The register of `f` holds the little-endian value of its buffer bytes (R52). -/
def State.Agrees (s : State) (f : FieldSpan) : Prop := s.readField f.dest = le (s.buf.slice f.offset f.width)

theorem fieldsMatch_iff (s : State) :
    s.FieldsMatch ↔ (s.cfg.proto = .gps → ∀ f ∈ gpsFields, s.pastOffset f.finish → s.Agrees f) := by
  simp [State.FieldsMatch, gpsFields, State.Agrees, FieldSpan.finish, State.readField]

/-- The fields lie in the header, after the sync bytes, and a register has the width of its field (R75). -/
theorem gpsFields_bounds : ∀ f ∈ gpsFields, 3 < f.finish ∧ f.finish ≤ 28 ∧ f.dest.width = some (8 * f.width) := by
  decide

/-- An entry of R87 ends before the end of the field, or is the field's own, or begins after it and leaves its register. -/
theorem gpsEntry_field {c : Config} (hc : c.Legal) (hp : c.proto = .gps) :
    ∀ i < 28, ∀ op ∈ entryOp c.entries i, ∀ f ∈ gpsFields,
      i + opWidth op < f.finish ∨ (i = f.offset ∧ opWidth op = f.width ∧ writtenField op = some f.dest) ∨
        (f.finish ≤ i ∧ writtenField op ≠ some f.dest) := by
  obtain ⟨-, -, -, -, -, hentries, -⟩ := hc.gps_fields hp
  rw [hentries]
  decide

/-- The same of the selected operation in every stage: payload and trailer lie after every field. -/
theorem selectOp_field {s : State} {op : ByteOp} {f : FieldSpan} (h : CursorInv s) (hp : s.cfg.proto = .gps)
    (ho : s.selectOp = .ok op) (hf : f ∈ gpsFields) :
    s.byteIndex.toNat + opWidth op < f.finish ∨
      (s.byteIndex.toNat = f.offset ∧ opWidth op = f.width ∧ writtenField op = some f.dest) ∨
      (f.finish ≤ s.byteIndex.toNat ∧ writtenField op ≠ some f.dest) := by
  obtain ⟨-, -, hhdr, -⟩ := h.legal.gps_fields hp
  obtain ⟨-, hend, -⟩ := gpsFields_bounds f hf
  obtain ⟨hi, hentry⟩ | ⟨hi, hop⟩ := h.selected ho
  · exact gpsEntry_field h.legal hp _ (hhdr ▸ hi) op hentry f hf
  · have hnone : writtenField op = none := by
      obtain rfl | rfl := hop
      · exact writtenField_payloadOp _
      · exact writtenField_trailerOp _
    exact .inr (.inr ⟨by omega, by simp [hnone]⟩)

/-! ### Where a field is complete -/

/-- Without a reported frame, a header offset is passed exactly when `byteIndex` has reached it. -/
theorem pastOffset_iff {s : State} {k : Nat} (h : CursorInv s) (hp : s.cfg.proto = .gps) (hr : s.ready = false)
    (hlo : 3 < k) (hhi : k ≤ 28) : s.pastOffset k ↔ k ≤ s.byteIndex.toNat := by
  obtain ⟨-, hsync, hhdr, -⟩ := h.legal.gps_fields hp
  rw [State.pastOffset, hr]
  cases hs : s.stage with
  | sync =>
    obtain ⟨hi, -⟩ := h.sync hs
    have hnot : ¬ k ≤ s.byteIndex.toNat := by omega
    simp [hnot]
  | header => simp
  | payload =>
    obtain ⟨hi, -⟩ := h.payload hs
    have hle : k ≤ s.byteIndex.toNat := by omega
    simp [hle]
  | trailer =>
    obtain ⟨hi, -⟩ := h.trailer hs
    have hle : k ≤ s.byteIndex.toNat := by omega
    simp [hle]

/-- A frame is reported only by an operation selected in the Trailer stage, after the header. -/
theorem hdrLen_le_of_ready {op : ByteOp} {s t : State} (h : CursorInv s) (hr : s.ready = false) (ho : s.selectOp = .ok op)
    (hrun : runByteOp op s = .next t) (ht : t.ready = true) : s.cfg.hdrLen ≤ s.byteIndex.toNat := by
  have hop : op = .tsum ∨ op = .tcrc := by
    obtain hsame | ⟨hop, -⟩ | ⟨hop, -⟩ := runByteOp_ready hrun
    · simp [hsame, hr] at ht
    · exact .inl hop
    · exact .inr hop
  obtain ⟨hs, -⟩ := selectOp_completing h ho hop
  obtain ⟨hi, -⟩ := h.trailer hs
  omega

/-! ### The end of an accumulate entry -/

theorem toNat_add_ofNat_le (i : Index) (w : Nat) : (i + BitVec.ofNat 9 w).toNat ≤ i.toNat + w := by
  rw [BitVec.toNat_add, BitVec.toNat_ofNat]
  exact (Nat.mod_le _ _).trans (Nat.add_le_add_left (Nat.mod_le _ _) _)

theorem writeField_advance_byteIndex_le (s : State) (d : Dest) (v w : Nat) :
    ((s.writeField d v).advance w).byteIndex.toNat ≤ s.byteIndex.toNat + w := by
  rw [State.advance_byteIndex, State.writeField_byteIndex]
  exact toNat_add_ofNat_le _ _

theorem finishLength_byteIndex_le (s : State) : (finishLength s).byteIndex.toNat ≤ s.byteIndex.toNat + 2 := by
  obtain h | h := finishLength_cases s <;> rw [h]
  · exact Nat.zero_le _
  · exact writeField_advance_byteIndex_le s .messageLength _ 2

/-- An accumulate entry leaves `byteIndex`, or ends with `fin` on a state with the same `byteIndex`. -/
theorem accumulate_cases {w : Nat} {fin : State → State} {s t : State} (h : accumulate w fin s = .next t) :
    t.byteIndex = s.byteIndex ∨ ∃ u, u.byteIndex = s.byteIndex ∧ t = fin u := by
  obtain ⟨b, -, -, rfl⟩ := accumulate_eq_next h
  split
  · refine .inr ⟨_, ?_, rfl⟩
    rfl
  · exact .inl rfl

theorem accumulate_byteIndex_le {w : Nat} {fin : State → State} {s t : State}
    (hfin : ∀ u, (fin u).byteIndex.toNat ≤ u.byteIndex.toNat + w) (h : accumulate w fin s = .next t) :
    t.byteIndex.toNat ≤ s.byteIndex.toNat + w := by
  obtain hi | ⟨u, hi, rfl⟩ := accumulate_cases h
  · simp [hi]
  · exact hi ▸ hfin u

/-- A byte operation advances `byteIndex` by its width at most. -/
theorem runByteOp_byteIndex_le {op : ByteOp} {s t : State} (h : runByteOp op s = .next t) :
    t.byteIndex.toNat ≤ s.byteIndex.toNat + opWidth op := by
  cases op with
  | sync c =>
    obtain ⟨b, -, ⟨-, -, rfl⟩ | ⟨-, rfl⟩⟩ := execSync_eq_next h
    · exact toNat_add_ofNat_le _ _
    · exact Nat.zero_le _
  | cver c =>
    obtain ⟨b, -, ⟨-, -, rfl⟩ | ⟨-, rfl⟩⟩ := execCver_eq_next h
    · exact toNat_add_ofNat_le _ _
    · exact Nat.zero_le _
  | pass =>
    obtain ⟨b, -, -, rfl⟩ := execPass_eq_next h
    exact toNat_add_ofNat_le _ _
  | acc16 d => exact accumulate_byteIndex_le (fun u => writeField_advance_byteIndex_le u d (u.leAt u.byteIndex.toNat 2) 2) h
  | acc32 d => exact accumulate_byteIndex_le (fun u => writeField_advance_byteIndex_le u d (u.leAt u.byteIndex.toNat 4) 4) h
  | acclen => exact accumulate_byteIndex_le finishLength_byteIndex_le h
  | skip =>
    obtain ⟨b, -, rfl⟩ := execSkip_eq_next h
    split
    · exact toNat_add_ofNat_le _ _
    · exact Nat.le_add_right _ _
  | payf n =>
    obtain ⟨b, -, -, rfl⟩ := copyPayload_eq_next h
    exact toNat_add_ofNat_le _ _
  | payv =>
    obtain ⟨b, -, -, rfl⟩ := copyPayload_eq_next h
    exact toNat_add_ofNat_le _ _
  | tsum => obtain ⟨b, -, -, ⟨-, rfl⟩ | ⟨-, rfl⟩⟩ := execTsum_eq_next h <;> exact Nat.zero_le _
  | tcrc =>
    obtain ⟨b, -, -, rfl⟩ := execTcrc_eq_next h
    split
    · exact Nat.zero_le _
    · exact Nat.le_add_right _ _

/-- The register holds the little-endian value of `w` buffer bytes that is written to it, if it is `w` bytes wide. -/
theorem writeField_leAt_advance (s : State) {d : Dest} {a w : Nat} (k : Nat) (hd : d.width = some (8 * w)) :
    ((s.writeField d (s.leAt a w)).advance k).readField d =
      le (((s.writeField d (s.leAt a w)).advance k).buf.slice a w) := by
  have hlt : s.leAt a w < 2 ^ (8 * w) := by
    have hlt := le_lt (s.buf.slice a w)
    rwa [Memory.length_slice, show 256 = 2 ^ 8 from rfl, ← pow_mul] at hlt
  rw [readField_advance, State.advance_buf, State.writeField_buf, s.readField_writeField_same d _ _ hd hlt, State.leAt]

/-- An accumulate entry that moves `byteIndex` on has written its register with its buffer bytes (R113 to R115). -/
theorem runByteOp_written {op : ByteOp} {s t : State} {d : Dest} (hop : writtenField op = some d)
    (hd : d.width = some (8 * opWidth op)) (h : runByteOp op s = .next t) (hlt : s.byteIndex.toNat < t.byteIndex.toNat) :
    t.readField d = le (t.buf.slice s.byteIndex.toNat (opWidth op)) := by
  cases op with
  | acc16 e =>
    obtain rfl : e = d := Option.some.inj hop
    obtain hi | ⟨u, hi, rfl⟩ := accumulate_cases (show execAcc16 e s = .next t from h)
    · simp [hi] at hlt
    · exact hi ▸ writeField_leAt_advance u 2 hd
  | acc32 e =>
    obtain rfl : e = d := Option.some.inj hop
    obtain hi | ⟨u, hi, rfl⟩ := accumulate_cases (show execAcc32 e s = .next t from h)
    · simp [hi] at hlt
    · exact hi ▸ writeField_leAt_advance u 4 hd
  | acclen =>
    obtain rfl : .messageLength = d := Option.some.inj hop
    obtain hi | ⟨u, hi, rfl⟩ := accumulate_cases (show execAcclen s = .next t from h)
    · simp [hi] at hlt
    · obtain hu | hu := finishLength_cases u
      · simp [hu] at hlt
      · rw [hu]
        exact hi ▸ writeField_leAt_advance u 2 hd
  | sync _ | cver _ | pass | skip | payf _ | payv | tsum | tcrc => cases hop

/-! ### Every step -/

/-- A field that was complete before the operation keeps its register and its bytes. -/
theorem agrees_of_finish_le {op : ByteOp} {s t : State} {f : FieldSpan} (h : CursorInv s) (ho : s.selectOp = .ok op)
    (hrun : runByteOp op s = .next t) (hf : s.Agrees f) (hend : f.finish ≤ s.byteIndex.toNat)
    (hd : writtenField op ≠ some f.dest) : t.Agrees f := by
  have hslice : t.buf.slice f.offset f.width = s.buf.slice f.offset f.width :=
    Memory.slice_congr fun x _ hx => runByteOp_read_outside h ho hrun (.inl (hx.trans_le hend))
  rw [State.Agrees, hslice, runByteOp_readField_of_ne hd hrun]
  exact hf

/-- A field that is complete after the operation was complete before it, or `byteIndex` has reached its end. -/
theorem finish_le_of_pastOffset {op : ByteOp} {s t : State} {f : FieldSpan} (h : CursorInv s) (hp : s.cfg.proto = .gps)
    (hr : s.ready = false) (ho : s.selectOp = .ok op) (hrun : runByteOp op s = .next t) (hf : f ∈ gpsFields)
    (ht : t.pastOffset f.finish) : f.finish ≤ s.byteIndex.toNat ∨ f.finish ≤ t.byteIndex.toNat := by
  obtain ⟨hlo, hhi, -⟩ := gpsFields_bounds f hf
  obtain ⟨-, -, hhdr, -⟩ := h.legal.gps_fields hp
  cases hready : t.ready with
  | true => exact .inl (by have := hdrLen_le_of_ready h hr ho hrun hready; omega)
  | false =>
    have hpt : t.cfg.proto = .gps := by rwa [(runByteOp_tookByte hrun).cfg]
    exact .inr ((pastOffset_iff (runByteOp_cursorInv h ho hrun) hpt hready hlo hhi).1 ht)

/-- The selected byte operation ends before the end of the field, or is the field's entry, or comes after it. -/
theorem runByteOp_agrees {op : ByteOp} {s t : State} {f : FieldSpan} (h : CursorInv s) (hp : s.cfg.proto = .gps)
    (hr : s.ready = false) (ho : s.selectOp = .ok op) (hrun : runByteOp op s = .next t) (hf : f ∈ gpsFields)
    (hs : s.pastOffset f.finish → s.Agrees f) (ht : t.pastOffset f.finish) : t.Agrees f := by
  obtain ⟨hlo, hhi, hwidth⟩ := gpsFields_bounds f hf
  have hreach := finish_le_of_pastOffset h hp hr ho hrun hf ht
  obtain hbefore | ⟨hi, hw, hd⟩ | ⟨hend, hd⟩ := selectOp_field h hp ho hf
  · have hle := runByteOp_byteIndex_le hrun
    omega
  · obtain ⟨hpos, -⟩ := opWidth_bounds op
    have hfinish : f.finish = s.byteIndex.toNat + opWidth op := by rw [FieldSpan.finish, hi, hw]
    rw [State.Agrees, ← hi, ← hw]
    exact runByteOp_written hd (hw ▸ hwidth) hrun (by omega)
  · exact agrees_of_finish_le h ho hrun (hs ((pastOffset_iff h hp hr hlo hhi).2 hend)) hend hd

theorem State.pastOffset_of_sameFrame {s t : State} {k : Nat} (H : SameFrame s t) (h : t.pastOffset k) : s.pastOffset k := by
  rw [State.pastOffset, H.stage, H.byteIndex] at h
  exact h.imp_right (Or.imp_right (Or.imp_right H.ready))

theorem State.FieldsMatch.of_sameFrame {s t : State} (h : s.FieldsMatch) (H : SameFrame s t) : t.FieldsMatch := by
  rw [fieldsMatch_iff] at h ⊢
  intro hp f hf hpast
  rw [State.Agrees, H.fields f.dest, H.buf]
  exact h (by rwa [← H.cfg]) f hf (State.pastOffset_of_sameFrame H hpast)

theorem resetRegisters_not_pastOffset (s : State) (k : Nat) : ¬ s.resetRegisters.pastOffset k := by
  simp [State.pastOffset]

theorem keptByParts_fieldsMatch : KeptByParts fun s => CursorInv s ∧ s.FieldsMatch where
  sameFrame := fun ⟨h, hmatch⟩ H => ⟨h.of_sameFrame H, hmatch.of_sameFrame H⟩
  byteOp := fun ⟨h, hmatch⟩ hr ho hrun => by
    refine ⟨runByteOp_cursorInv h ho hrun, ?_⟩
    rw [fieldsMatch_iff] at hmatch ⊢
    intro hp f hf ht
    rw [(runByteOp_tookByte hrun).cfg] at hp
    exact runByteOp_agrees h hp hr ho hrun hf (hmatch hp f hf) ht
  reset := fun {s} ⟨h, _⟩ => by
    refine ⟨(resetRegisters_decoderInv h.legal).cursorInv, ?_⟩
    rw [fieldsMatch_iff]
    exact fun _ f _ hpast => absurd hpast (resetRegisters_not_pastOffset s f.finish)

/-- Settles O45: the cursor invariant beside it, the agreement is kept by the selected byte operation, by RESET and by an
ACQUIRE's bookkeeping. -/
theorem fieldRegistersAgreeWithTheBuffer : Obligations.FieldRegistersAgreeWithTheBuffer := by
  unfold Obligations.FieldRegistersAgreeWithTheBuffer
  intro s t hinv hmatch hstep
  exact (keptByParts_fieldsMatch.of_step_of_inv hinv ⟨inv_cursorInv hinv, hmatch⟩ hstep).2

end Sys2Proof.Machine

/-! Decoding and encoding are inverse (R81 to R83, R88). -/

namespace Sys2Proof

/-! ### The fields of a descriptor word (R81) -/

section
variable (kind : BitVec 4) (width : BitVec 3) (nz : BitVec 1) (dest : BitVec 4) (const : Byte)
open BitVec (extractLsb'_append_eq_of_le extractLsb'_append_eq_left extractLsb'_append_eq_right)

@[simp] theorem descConst_descWord : descConst (descWord kind width nz dest const) = const := extractLsb'_append_eq_right

/-- A field above the constant is a field of the five others. -/
theorem extractLsb'_descWord {start : Nat} (len : Nat) (h : 8 ≤ start) :
    (descWord kind width nz dest const).extractLsb' start len =
      (kind ++ width ++ nz ++ dest ++ 0#4).extractLsb' (start - 8) len := extractLsb'_append_eq_of_le h

@[simp] theorem descReserved_descWord : descReserved (descWord kind width nz dest const) = 0#4 := by
  rw [descReserved, extractLsb'_descWord _ _ _ _ _ _ (by decide)]
  exact extractLsb'_append_eq_right

@[simp] theorem descDest_descWord : descDest (descWord kind width nz dest const) = dest := by
  rw [descDest, extractLsb'_descWord _ _ _ _ _ _ (by decide), extractLsb'_append_eq_of_le (by decide)]
  exact extractLsb'_append_eq_right

@[simp] theorem descNz_descWord : descNz (descWord kind width nz dest const) = nz := by
  rw [descNz, extractLsb'_descWord _ _ _ _ _ _ (by decide), extractLsb'_append_eq_of_le (by decide),
    extractLsb'_append_eq_of_le (by decide)]
  exact extractLsb'_append_eq_right

@[simp] theorem descWidth_descWord : descWidth (descWord kind width nz dest const) = width := by
  rw [descWidth, extractLsb'_descWord _ _ _ _ _ _ (by decide), extractLsb'_append_eq_of_le (by decide),
    extractLsb'_append_eq_of_le (by decide), extractLsb'_append_eq_of_le (by decide)]
  exact extractLsb'_append_eq_right

@[simp] theorem descKind_descWord : descKind (descWord kind width nz dest const) = kind := by
  rw [descKind, extractLsb'_descWord _ _ _ _ _ _ (by decide), extractLsb'_append_eq_of_le (by decide),
    extractLsb'_append_eq_of_le (by decide), extractLsb'_append_eq_of_le (by decide)]
  exact extractLsb'_append_eq_left

end

/-- With the reserved field 0, a descriptor word is the word of its fields. -/
theorem descWord_of_fields {w : DescWord} (h : descReserved w = 0#4) :
    descWord (descKind w) (descWidth w) (descNz w) (descDest w) (descConst w) = w := by
  rw [descWord, ← h, descKind, descWidth, descNz, descDest, descReserved, descConst,
    BitVec.extractLsb'_append_extractLsb'_eq_extractLsb' (show 20 = 17 + 3 from rfl),
    BitVec.extractLsb'_append_extractLsb'_eq_extractLsb' (show 17 = 16 + 1 from rfl),
    BitVec.extractLsb'_append_extractLsb'_eq_extractLsb' (show 16 = 12 + 4 from rfl),
    BitVec.extractLsb'_append_extractLsb'_eq_extractLsb' (show 12 = 8 + 4 from rfl)]
  exact BitVec.extractLsb'_append_extractLsb'

/-- What it means for a word to have a pattern of R83's table. -/
theorem descWord_eq_iff {w : DescWord} {kind : BitVec 4} {width : BitVec 3} {nz : BitVec 1} {dest : BitVec 4} {const : Byte} :
    descWord kind width nz dest const = w ↔ descReserved w = 0#4 ∧ descKind w = kind ∧ descWidth w = width ∧ descNz w = nz ∧
      descDest w = dest ∧ descConst w = const := by
  constructor
  · rintro rfl
    simp
  · rintro ⟨h, rfl, rfl, rfl, rfl, rfl⟩
    exact descWord_of_fields h

/-! ### The register an entry names (R75, R82) -/

theorem Dest.ofCode_code (d : Dest) : Dest.ofCode d.code = some d := by
  cases d <;> rfl

theorem Dest.ofCode_eq_some_iff {c : BitVec 4} {d : Dest} : Dest.ofCode c = some d ↔ d.code = c := by
  constructor
  · have hcode : ∀ c : BitVec 4, ∀ e ∈ Dest.ofCode c, e.code = c := by decide
    exact hcode c d
  · rintro rfl
    exact d.ofCode_code

theorem decodeDest_eq_ok_iff {w : Nat} {c : BitVec 4} {d : Dest} :
    decodeDest w c = .ok d ↔ d.fits w = true ∧ d.code = c := by
  rw [← Dest.ofCode_eq_some_iff, decodeDest]
  cases Dest.ofCode c with
  | none => simp
  | some e =>
    by_cases he : e.fits w = true
    · simp only [he, if_true, Except.ok.injEq, Option.some.injEq]
      exact ⟨fun h => ⟨h ▸ he, h⟩, And.right⟩
    · simp only [he, Option.some.injEq]
      refine ⟨fun h => by simp at h, ?_⟩
      rintro ⟨hd, rfl⟩
      exact absurd hd he

theorem decodeDest_bind_eq_ok_iff {w : Nat} {c : BitVec 4} {f : Dest → Except DecodeReject ByteOp} {op : ByteOp} :
    (decodeDest w c).bind f = .ok op ↔ ∃ d, d.fits w = true ∧ d.code = c ∧ f d = .ok op := by
  simp only [← and_assoc, ← decodeDest_eq_ok_iff]
  cases decodeDest w c with
  | error why => simp [Except.bind]
  | ok d => simp [Except.bind]

theorem requireFields_eq_ok_iff {holds : Bool} {op op' : ByteOp} :
    requireFields holds op = .ok op' ↔ holds = true ∧ op = op' := by
  cases holds <;> simp [requireFields]

/-! ### The three decoders -/

/-- The decoder finds a byte operation in the word it is encoded as. -/
theorem decodeByteOp_of_encode {w : DescWord} {op : ByteOp} (hwf : op.toInstr.wf = true)
    (h : encode op.toInstr = .descriptor w) : decodeByteOp w = .ok op := by
  cases op with
  | acc16 d | acc32 d =>
    obtain rfl := IfaceWord.descriptor.inj h
    simp only [decodeByteOp, descReserved_descWord, descKind_descWord, descWidth_descWord, descNz_descWord,
      descDest_descWord, descConst_descWord, decodeDest_eq_ok_iff.2 ⟨hwf, rfl⟩]
    rfl
  | sync c | cver c | pass | acclen | skip | payf c | payv | tsum | tcrc =>
    obtain rfl := IfaceWord.descriptor.inj h
    simp only [decodeByteOp, descReserved_descWord, descKind_descWord, descWidth_descWord, descNz_descWord,
      descDest_descWord, descConst_descWord]
    rfl

/-- A conditional decoder accepts by its first branch or, where the condition fails, by its second. -/
theorem ite_eq_ok_imp {α : Type} {p : Prop} [Decidable p] {x y : Except DecodeReject α} {a : α} {goal : Prop}
    (hx : p → x = .ok a → goal) (hy : ¬ p → y = .ok a → goal) (h : (if p then x else y) = .ok a) : goal := by
  by_cases hp : p
  · exact hx hp (by rwa [if_pos hp] at h)
  · exact hy hp (by rwa [if_neg hp] at h)

/-- The word is that of the operation, a well-formed one. -/
abbrev IsEncodedAs (op : ByteOp) (w : DescWord) : Prop := op.toInstr.wf = true ∧ encode op.toInstr = .descriptor w

/-- A row of R83's table fixes the six fields of a word it accepts, so the word is the row's pattern. -/
theorem isEncodedAs_of_row {w : DescWord} {kind : BitVec 4} {width : BitVec 3} {nz : BitVec 1} {dest : BitVec 4}
    {const : Byte} {holds : Bool} {op op' : ByteOp} (hr : descReserved w = 0#4) (hwf : op'.toInstr.wf = true)
    (henc : encode op'.toInstr = .descriptor (descWord kind width nz dest const))
    (hfields : holds = true → descNz w = nz ∧ descDest w = dest ∧ descConst w = const)
    (hk : descKind w = kind ∧ descWidth w = width) (h : requireFields holds op' = .ok op) : IsEncodedAs op w := by
  obtain ⟨hholds, rfl⟩ := requireFields_eq_ok_iff.1 h
  obtain ⟨hkind, hwidth⟩ := hk
  rw [IsEncodedAs, henc, descWord_eq_iff.2 ⟨hr, hkind, hwidth, hfields hholds⟩]
  exact ⟨hwf, rfl⟩

/-- The rows of ACC16 and ACC32 name a register besides. -/
theorem isEncodedAs_of_accRow {w : DescWord} {kind : BitVec 4} {width : BitVec 3} {k : Nat} {op : ByteOp}
    {acc : Dest → ByteOp} (hr : descReserved w = 0#4)
    (hwf : ∀ d, d.fits k = true → (acc d).toInstr.wf = true)
    (henc : ∀ d, encode (acc d).toInstr = .descriptor (descWord kind width 0#1 d.code 0#8))
    (hk : descKind w = kind ∧ descWidth w = width)
    (h : ((decodeDest k (descDest w)).bind fun d => requireFields (descNz w == 0#1 && descConst w == 0#8) (acc d)) = .ok op) :
    IsEncodedAs op w := by
  obtain ⟨d, hfit, hd, h⟩ := decodeDest_bind_eq_ok_iff.1 h
  exact isEncodedAs_of_row hr (hwf d hfit) (henc d) (by simp +contextual [hd]) hk h

/-- A byte operation the decoder finds is well formed and encoded as the word: the rows of R83's table in their order, and the
words no row accepts. -/
theorem isEncodedAs_of_decodeByteOp {w : DescWord} {op : ByteOp} : decodeByteOp w = .ok op → IsEncodedAs op w := by
  rw [decodeByteOp]
  refine ite_eq_ok_imp (fun _ h => nomatch h) fun hr => ?_
  rw [not_not] at hr
  -- SYNC, CVER and PASS; ACC16 and ACC32; then ACCLEN to TCRC
  iterate 3 refine ite_eq_ok_imp (isEncodedAs_of_row hr rfl rfl (by simp +contextual)) fun _ => ?_
  iterate 2 refine ite_eq_ok_imp (isEncodedAs_of_accRow hr (fun _ => id) fun _ => rfl) fun _ => ?_
  iterate 6 refine ite_eq_ok_imp (isEncodedAs_of_row hr rfl rfl (by simp +contextual)) fun _ => ?_
  exact ite_eq_ok_imp (fun _ h => nomatch h) fun _ h => nomatch h

/-! ### The command and read-outcome words (R88) -/

theorem cmdWord_of_fields (w : CmdWord) : cmdWord (w.extractLsb' 16 2) (w.extractLsb' 0 16) = w :=
  BitVec.extractLsb'_append_extractLsb'

theorem cmdWord_cmd (cmd : BitVec 2) (arg : Half) : (cmdWord cmd arg).extractLsb' 16 2 = cmd :=
  BitVec.extractLsb'_append_eq_left

theorem cmdWord_arg (cmd : BitVec 2) (arg : Half) {start len : Nat} (h : start + len ≤ 16) :
    (cmdWord cmd arg).extractLsb' start len = arg.extractLsb' start len :=
  BitVec.extractLsb'_append_eq_of_add_le h

theorem decodeCommand_step (b : Byte) : decodeCommand (cmdWord 1#2 (0#8 ++ b)) = .ok (.step b) := by
  have hzero : (0#8 ++ b).extractLsb' 8 8 = 0#8 := BitVec.extractLsb'_append_eq_left
  have hbyte : (0#8 ++ b).extractLsb' 0 8 = b := BitVec.extractLsb'_append_eq_right
  simp [decodeCommand, cmdWord_cmd, cmdWord_arg, hzero, hbyte]

theorem decodeCommand_acquire (n : Half) : decodeCommand (cmdWord 2#2 n) = .ok (.acquire n) := by
  simp [decodeCommand, cmdWord_cmd, cmdWord_arg]

/-- A STEP's argument is its byte below a zero byte. -/
theorem arg_of_extractLsb' {w : CmdWord} (h : w.extractLsb' 8 8 = 0#8) : 0#8 ++ w.extractLsb' 0 8 = w.extractLsb' 0 16 := by
  rw [← h]
  exact BitVec.extractLsb'_append_extractLsb'_eq_extractLsb' rfl

theorem encode_of_decodeCommand {w : CmdWord} {i : Instr} :
    decodeCommand w = .ok i → i.wf = true ∧ encode i = .command w := by
  rw [decodeCommand]
  refine ite_eq_ok_imp (fun _ h => nomatch h) fun h0 => ite_eq_ok_imp (fun h1 => ?step) fun h1 =>
    ite_eq_ok_imp (fun h2 h => ?acquire) fun h2 => ite_eq_ok_imp (fun harg h => ?reset) fun _ h => nomatch h
  case step =>
    refine ite_eq_ok_imp (fun harg h => ?_) fun _ h => nomatch h
    obtain rfl := Except.ok.inj h
    rw [encode, arg_of_extractLsb' harg, ← h1, cmdWord_of_fields]
    exact ⟨rfl, rfl⟩
  case acquire =>
    obtain rfl := Except.ok.inj h
    rw [encode, ← h2, cmdWord_of_fields]
    exact ⟨rfl, rfl⟩
  case reset =>
    obtain rfl := Except.ok.inj h
    have h3 : ∀ cmd : BitVec 2, cmd ≠ 0#2 → cmd ≠ 1#2 → cmd ≠ 2#2 → cmd = 3#2 := by decide
    rw [encode, ← h3 _ h0 h1 h2, ← harg, cmdWord_of_fields]
    exact ⟨rfl, rfl⟩

theorem rdWord_of_fields (w : RdWord) : rdWord (w.extractLsb' 8 2) (w.extractLsb' 0 8) = w :=
  BitVec.extractLsb'_append_extractLsb'

theorem word_of_decodeAnswer {w : RdWord} {a : ReadAnswer} : decodeAnswer w = .ok a → a.word = w := by
  rw [decodeAnswer]
  refine ite_eq_ok_imp (fun h0 h => ?byte) fun _ => ite_eq_ok_imp (fun h1 => ?timeout) fun _ =>
    ite_eq_ok_imp (fun h2 => ?error) fun _ h => nomatch h
  case byte =>
    obtain rfl := Except.ok.inj h
    rw [ReadAnswer.word, ← h0, rdWord_of_fields]
  case timeout =>
    refine ite_eq_ok_imp (fun hdata h => ?_) fun _ h => nomatch h
    obtain rfl := Except.ok.inj h
    rw [ReadAnswer.word, ← h1, ← hdata, rdWord_of_fields]
  case error =>
    refine ite_eq_ok_imp (fun hdata h => ?_) fun _ h => nomatch h
    obtain rfl := Except.ok.inj h
    rw [ReadAnswer.word, ← h2, ← hdata, rdWord_of_fields]

theorem encode_readAnswer (a : ReadAnswer) : encode a.toInstr = .outcome a.word := by
  cases a <;> rfl

/-! ### The decoder and the encoder -/

open Sys2Proof.Machine

theorem decode_encode {i : Instr} (h : i.wf = true) : decode (encode i) = .ok i := by
  obtain ⟨op, rfl⟩ | ⟨a, rfl⟩ | ⟨b, rfl⟩ | ⟨n, rfl⟩ | rfl := instr_cases i
  · obtain ⟨w, hw⟩ : ∃ w, encode op.toInstr = .descriptor w := by cases op <;> exact ⟨_, rfl⟩
    rw [hw, decode, decodeByteOp_of_encode h hw]
    rfl
  · rw [encode_readAnswer, decode, decodeAnswer_word]
    rfl
  · exact decodeCommand_step b
  · exact decodeCommand_acquire n
  · rfl

theorem map_eq_ok_imp {α β : Type} {x : Except DecodeReject α} {f : α → β} {b : β} (h : x.map f = .ok b) :
    ∃ a, x = .ok a ∧ f a = b := by
  cases x with
  | error why => cases h
  | ok a => exact ⟨a, rfl, Except.ok.inj h⟩

/-- An accepted word is the word of the instruction it decodes to. -/
theorem encode_of_decode {x : IfaceWord} {i : Instr} (h : decode x = .ok i) : i.wf = true ∧ encode i = x := by
  cases x with
  | descriptor w =>
    obtain ⟨op, hop, rfl⟩ := map_eq_ok_imp h
    exact isEncodedAs_of_decodeByteOp hop
  | command w => exact encode_of_decodeCommand h
  | outcome w =>
    obtain ⟨a, ha, rfl⟩ := map_eq_ok_imp h
    rw [encode_readAnswer, word_of_decodeAnswer ha]
    exact ⟨by cases a <;> rfl, rfl⟩

/-- Settles O1: by cases on the interface the instruction's word is for. -/
theorem decodeOfEncodeIsTheInstruction : Obligations.DecodeOfEncodeIsTheInstruction := by
  unfold Obligations.DecodeOfEncodeIsTheInstruction
  exact fun _ h => decode_encode h

/-- Settles O2: each decoder fixes every field of a word it accepts. -/
theorem acceptedWordIsItsInstructionsEncoding : Obligations.AcceptedWordIsItsInstructionsEncoding := by
  unfold Obligations.AcceptedWordIsItsInstructionsEncoding
  exact fun _ _ h => encode_of_decode h

/-! ### Reserved words, and words written out -/

theorem Dest.code_lt (d : Dest) : d.code.toNat < 8 := by
  cases d <;> decide

/-- No reserved code stands in the word of a byte operation (R82, R83). -/
theorem fields_of_isEncodedAs {w : DescWord} {op : ByteOp} (h : IsEncodedAs op w) :
    (descKind w).toNat < 10 ∧ (descWidth w = 1#3 ∨ descWidth w = 2#3 ∨ descWidth w = 4#3) ∧ descReserved w = 0#4 ∧
      (descDest w).toNat < 8 := by
  obtain ⟨-, henc⟩ := h
  cases op with
  | acc16 d | acc32 d =>
    obtain rfl := IfaceWord.descriptor.inj henc
    simpa using d.code_lt
  | sync c | cver c | pass | acclen | skip | payf c | payv | tsum | tcrc =>
    obtain rfl := IfaceWord.descriptor.inj henc
    simp

theorem decodeAnswer_reserved {w : RdWord} (h : w.extractLsb' 8 2 = 3#2) : decodeAnswer w = .error .reservedOutcome := by
  simp [decodeAnswer, h]

/-- Settles O3: a descriptor word that decodes is the word of a byte operation, whose fields hold no reserved code. -/
theorem reservedWordsAreRejected : Obligations.ReservedWordsAreRejected := by
  unfold Obligations.ReservedWordsAreRejected
  refine ⟨fun w hres i h => ?_, fun w hcmd i h => ?_, fun w hrsp i h => ?_⟩
  · obtain ⟨op, hop, -⟩ := map_eq_ok_imp h
    obtain ⟨hkind, hwidth, hzero, hdest⟩ := fields_of_isEncodedAs (isEncodedAs_of_decodeByteOp hop)
    obtain hk | ⟨h1, h2, h4⟩ | hr | hd := hres
    · omega
    · simp [h1, h2, h4] at hwidth
    · exact hr hzero
    · omega
  · simp [decode_command_of_noCommand hcmd] at h
  · simp [decode_outcome_eq_error (decodeAnswer_reserved hrsp)] at h

/-- Settles O4: each word is its operation's encoding. -/
theorem writtenOutWordsDecode : Obligations.WrittenOutWordsDecode := by
  unfold Obligations.WrittenOutWordsDecode
  exact ⟨decode_encode (i := .sync 0xAA#8) rfl, decode_encode (i := .cver 0x1C#8) rfl,
    decode_encode (i := .acc16 .timeWeek) rfl, decode_encode (i := .acc32 .status) rfl, decode_encode (i := .acclen) rfl,
    decode_encode (i := .payf 30#8) rfl, decode_encode (i := .tcrc) rfl, decode_encode (i := .step 0xAA#8) rfl,
    decode_encode (i := .acquire 1000#16) rfl, decode_encode (i := .rdByte 0x1C#8) rfl⟩

end Sys2Proof

/-! What a machine step runs (R85, R88, R100, R172, R220), and the descriptor programs (R86, R87). -/

namespace Sys2Proof.Machine

/-! ### The decoded instruction -/

theorem fetch_of_byteIn {s : State} (hb : s.byteIn.isSome = true) : fetch s = fetchByteOp s := if_pos hb

theorem fetch_of_budget {s : State} (hb : s.byteIn = none) (hn : s.budget.isSome = true) : fetch s = fetchAnswer s := by
  rw [fetch, if_neg (by simp [hb]), if_pos hn]

theorem fetch_of_not_busy {s : State} (h : s.busy = false) : fetch s = fetchCommand s := by
  obtain ⟨hn, hb⟩ := busy_eq_false_iff.1 h
  rw [fetch, if_neg (by simp [hb]), if_neg (by simp [hn])]

theorem step_of_fetch {s t : State} {i : Instr} (h : fetch s = .run i t) : step s = exec i t := by
  rw [step, h]

theorem fetchByteOp_of_decode {s : State} {w : DescWord} {i : Instr} (hw : s.entryWord = some w)
    (hi : decode (.descriptor w) = .ok i) : fetchByteOp s = .run i s := by
  obtain ⟨op, hop, rfl⟩ := map_eq_ok_imp hi
  rw [fetchByteOp, State.selectOp_of_entry hw hop]

theorem fetchAnswer_of_decode {s t : State} {w : RdWord} {i : Instr} (ht : s.takeAnswer = (w, t))
    (hi : decode (.outcome w) = .ok i) : fetchAnswer s = .run i t := by
  rw [fetchAnswer, ht, hi]

theorem takeAnswer_of_cons {s : State} {w : RdWord} {ws : List RdWord} (h : s.source = w :: ws) :
    s.takeAnswer = (w, { s with source := ws }) := by
  rw [State.takeAnswer, h]

theorem takeAnswer_of_nil {s : State} (h : s.source = []) : s.takeAnswer =
    ((Config.sourceAnswer Config.timeoutMs s.freeReads).word, { s with freeReads := s.freeReads + 1 }) := by
  rw [State.takeAnswer, h]

theorem decode_answer_word (a : ReadAnswer) : decode (.outcome a.word) = .ok a.toInstr := by
  rw [decode, decodeAnswer_word]
  rfl

theorem fetchCommand_of_decode {s : State} {w : CmdWord} {ws : List CmdWord} {i : Instr} (hc : s.commands = w :: ws)
    (hi : decode (.command w) = .ok i) : fetchCommand s = .run i { s with commands := ws } := by
  rw [fetchCommand, hc]
  dsimp only
  rw [hi]

theorem step_of_noCommand {s : State} {w : CmdWord} {ws : List CmdWord} (hs : s.busy = false) (hc : s.commands = w :: ws)
    (hw : w.extractLsb' 16 2 = 0#2) : step s = .next { s with commands := ws } := by
  rw [step, fetch_of_not_busy hs, fetchCommand, hc]
  dsimp only
  rw [decode_command_of_noCommand hw]

theorem step_of_no_commands {s : State} (hs : s.busy = false) (hc : s.commands = []) : step s = .next s := by
  rw [step, fetch_of_not_busy hs, fetchCommand, hc]

/-- Settles O5: each clause is one branch of `fetch`. -/
theorem stepRunsTheDecodedInstruction : Obligations.StepRunsTheDecodedInstruction := by
  unfold Obligations.StepRunsTheDecodedInstruction
  refine ⟨fun s w i hb hw hi => step_of_fetch ?byteOp, fun s w ws i hb hn hsrc hi => step_of_fetch ?answer,
    fun s hb hn hsrc => step_of_fetch ?free, fun s w ws i hs hc hi => step_of_fetch ?command,
    fun s w ws hs hc hw => step_of_noCommand hs hc hw, fun s hs hc => step_of_no_commands hs hc⟩
  case byteOp => rw [fetch_of_byteIn hb, fetchByteOp_of_decode hw hi]
  case answer => rw [fetch_of_budget hb hn, fetchAnswer_of_decode (takeAnswer_of_cons hsrc) hi]
  case free => rw [fetch_of_budget hb hn, fetchAnswer_of_decode (takeAnswer_of_nil hsrc) (decode_answer_word _)]
  case command => rw [fetch_of_not_busy hs, fetchCommand_of_decode hc hi]

/-! ### The descriptor programs -/

theorem selectOp_of_entryOp {s : State} {es : List (Nat × DescWord)} {i : Nat} {op : ByteOp} (hes : s.cfg.entries = es)
    (hop : entryOp es i = some op) (hs : s.stage = .sync ∨ s.stage = .header) (hi : s.byteIndex.toNat = i) :
    s.selectOp = .ok op := by
  rwa [selectOp_eq_ok_iff_entryOp hs, hes, hi]

/-- Settles O6: R86's table, entry by entry. -/
theorem imuDescriptorProgram : Obligations.ImuDescriptorProgram := by
  unfold Obligations.ImuDescriptorProgram
  intro s hc hp
  obtain ⟨-, -, -, -, -, hes, -⟩ := hc.imu_fields hp
  have hsync : ∀ i < 4, entryOp Config.imu.entries i = some (.sync 0xFF#8) := by decide
  refine ⟨fun hs hi => selectOp_of_entryOp hes (hsync _ hi) (.inl hs) rfl,
    fun hs => selectOp_of_entryOp hes (by decide) (.inr hs),
    fun hs => selectOp_of_entryOp hes (by decide) (.inr hs), fun hs => selectOp_of_entryOp hes (by decide) (.inr hs),
    fun hs => ?payload, fun hs => ?trailer⟩
  case payload =>
    rw [selectOp_of_payload hc hs, hp]
    rfl
  case trailer =>
    rw [selectOp_of_trailer hc hs, hp]
    rfl

/-- Settles O7: R87's table, entry by entry. -/
theorem gpsDescriptorProgram : Obligations.GpsDescriptorProgram := by
  unfold Obligations.GpsDescriptorProgram
  intro s hc hp
  obtain ⟨-, -, -, -, -, hes, -⟩ := hc.gps_fields hp
  have hpass : ∀ i ∈ [6, 7, 12, 13], entryOp Config.gps.entries i = some .pass := by decide
  refine ⟨fun hs => selectOp_of_entryOp hes (by decide) (.inl hs), fun hs => selectOp_of_entryOp hes (by decide) (.inl hs),
    fun hs => selectOp_of_entryOp hes (by decide) (.inl hs), fun hs => ?header, fun hs => ?payload, fun hs => ?trailer⟩
  case header =>
    have hentry {i : Nat} {op : ByteOp} (hop : entryOp Config.gps.entries i = some op) (hi : s.byteIndex.toNat = i) :
        s.selectOp = .ok op := selectOp_of_entryOp hes hop (.inr hs) hi
    exact ⟨hentry (by decide), hentry (by decide), fun hi => hentry (hpass _ hi) rfl, hentry (by decide), hentry (by decide),
      hentry (by decide), hentry (by decide), hentry (by decide), hentry (by decide), hentry (by decide)⟩
  case payload =>
    rw [selectOp_of_payload hc hs, hp]
    rfl
  case trailer =>
    rw [selectOp_of_trailer hc hs, hp]
    rfl

end Sys2Proof.Machine

/-! A frame on the wire, byte by byte: how far its reception has come, and what one more byte does (R14, R89, R105). -/

namespace Sys2Proof.Machine

/-! ### Streams -/

theorem execStep_of_not_busy {s : State} (h : s.busy = false) (b : Byte) : exec (.step b) s = stepByte b s :=
  if_neg (by simp [h])

theorem andThen_next_right (o : Result) : andThen o .next = o := by
  cases o <;> rfl

theorem feed_append (xs ys : List Byte) (s : State) : feed (xs ++ ys) s = andThen (feed xs s) (feed ys) := by
  induction xs generalizing s with
  | nil => rfl
  | cons x xs ih =>
    rw [List.cons_append, feed, feed]
    cases exec (.step x) s with
    | next u => exact ih u
    | fault r => rfl
    | refused r => rfl

/-- The state in which a STEP's byte operation runs: the flags cleared, the byte accepted (R100). -/
def State.latch (s : State) (b : Byte) : State := { s.clearFlags with byteIn := some b }

theorem stepByte_eq_runByteOp {s : State} {op : ByteOp} (h : s.selectOp = .ok op) (b : Byte) :
    stepByte b s = runByteOp op (s.latch b) := stepByte_of_selectOp h

/-- One byte more of a stream is one STEP more. -/
theorem feed_take_succ {bs : List Byte} {n : Nat} {b : Byte} {s u : State} (hb : bs[n]? = some b)
    (hu : feed (bs.take n) s = .next u) : feed (bs.take (n + 1)) s = exec (.step b) u := by
  rw [List.take_add_one, hb, feed_append, hu]
  exact andThen_next_right _

/-- A STEP clears the flags itself (R100). -/
theorem feed_clearFlags {bs : List Byte} (h : bs ≠ []) (s : State) : feed bs s.clearFlags = feed bs s := by
  cases bs with
  | nil => exact absurd rfl h
  | cons b bs => rfl

/-- The induction along a stream: what every STEP of the first `m` bytes carries on holds after each of them. -/
theorem feed_take_induct {P : Nat → State → Prop} {bs : List Byte} {m : Nat} {s : State} (hm : m ≤ bs.length) (h0 : P 0 s)
    (hstep : ∀ n b u, n < m → bs[n]? = some b → P n u → ∃ t, exec (.step b) u = .next t ∧ P (n + 1) t) :
    ∀ n ≤ m, ∃ t, feed (bs.take n) s = .next t ∧ P n t := by
  intro n
  induction n with
  | zero => exact fun _ => ⟨s, rfl, h0⟩
  | succ n ih =>
    intro hn
    obtain ⟨u, hu, hP⟩ := ih (by omega)
    obtain ⟨t, ht, hP⟩ := hstep n bs[n] u (by omega) (List.getElem?_eq_getElem (by omega)) hP
    exact ⟨t, (feed_take_succ (List.getElem?_eq_getElem (by omega)) hu).trans ht, hP⟩

/-! ### The buffer so far -/

/-- The buffer holds the first `n` bytes of a frame's image. -/
def State.Holds (s : State) (img : List Byte) (n : Nat) : Prop := ∀ x < n, img[x]? = some (s.buf.read x)

theorem State.Holds.store {s t : State} {img : List Byte} {n : Nat} {b : Byte} (h : s.Holds img n) (hst : StoredAt n b s t)
    (hb : img[n]? = some b) : t.Holds img (n + 1) := fun x hx => by
  rw [hst x]
  split
  · next hxn => rw [hxn, hb]
  · exact h x (by omega)

theorem State.Holds.skip {s t : State} {img : List Byte} {n : Nat} (h : s.Holds img n) (hsame : SameBuf s t)
    (hb : img[n]? = some (s.buf.read n)) : t.Holds img (n + 1) := fun x hx => by
  rw [hsame x]
  obtain hlt | rfl := Nat.lt_succ_iff_lt_or_eq.1 hx
  · exact h x hlt
  · exact hb

theorem Memory.getElem?_slice (m : Memory) (a n k : Nat) :
    (m.slice a n)[k]? = if k < n then some (m.read (a + k)) else none := by
  induction n generalizing a k with
  | zero => simp
  | succ n ih =>
    rw [Memory.slice_succ]
    cases k with
    | zero => simp
    | succ k => simp [ih, Nat.add_assoc, Nat.add_comm 1 k]

/-- A slice of the received part is that part of the image. -/
theorem State.Holds.slice {s : State} {img : List Byte} {n a k : Nat} (h : s.Holds img n) (hk : a + k ≤ n) :
    s.buf.slice a k = (img.drop a).take k := by
  refine List.ext_getElem? fun x => ?_
  rw [Memory.getElem?_slice, List.getElem?_take, List.getElem?_drop]
  split
  · next hx => rw [h (a + x) (by omega)]
  · rfl

/-! ### One byte of a frame -/

/-- How many bytes of the frame in progress have been received. -/
def State.received (s : State) : Nat := s.byteIndex.toNat + s.subIndex.toNat

/-- The byte `b` neither ends the frame in progress nor fails its operation's test (R101, R111, R115, R150, R152). -/
def Accepts (s : State) (b : Byte) : ByteOp → Prop
  | .sync c => b = c
  | .cver c => b = c
  | .acclen => s.subIndex.toNat = 1 →
      1 ≤ le [s.buf.read s.byteIndex.toNat, b] ∧ le [s.buf.read s.byteIndex.toNat, b] ≤ s.cfg.maxLen
  | .tsum => False
  | .tcrc => s.subIndex.toNat ≠ 3
  | .pass | .acc16 _ | .acc32 _ | .skip | .payf _ | .payv => True

theorem index_add_toNat {i : Index} (w : Nat) (h : i.toNat + w < 512) : (i + BitVec.ofNat 9 w).toNat = i.toNat + w := by
  rw [BitVec.toNat_add, BitVec.toNat_ofNat]
  omega

theorem subIndex_add_toNat {j : SubIndex} (h : j.toNat < 4) : (j + 1#3).toNat = j.toNat + 1 := by
  rw [BitVec.toNat_add, BitVec.toNat_ofNat]
  omega

/-- The end of an entry: `advance` counts the bytes that `subIndex` has counted, and the last one. -/
theorem received_advance {s u : State} {w : Nat} (hi : u.byteIndex = s.byteIndex) (hw : s.subIndex.toNat + 1 = w)
    (hcap : s.received < 500) : (u.advance w).received = s.received + 1 := by
  rw [State.received] at hcap ⊢
  rw [State.advance_byteIndex, State.advance_subIndex, hi, index_add_toNat w (by omega), State.received, ← hw]
  rfl

/-- An accumulate entry counts its byte, if `fin` counts the last one (R118). -/
theorem accumulate_received {w : Nat} {fin : State → State} {s t : State} {b : Byte} (hb : s.byteIn = some b)
    (hj : s.subIndex.toNat < 4) (h : accumulate w fin s = .next t)
    (hfin : ∀ u : State, s.subIndex.toNat + 1 = w → u.byteIndex = s.byteIndex → u.cfg = s.cfg → StoredAt s.received b s u →
      (fin u).received = s.received + 1) : t.received = s.received + 1 := by
  obtain ⟨c, hc, -, rfl⟩ := accumulate_eq_next h
  obtain rfl : b = c := Option.some.inj (hb.symm.trans hc)
  have hnext := subIndex_add_toNat hj
  split
  · next hw =>
    refine hfin _ (hnext.symm.trans hw) rfl rfl ?_
    exact storedAt_of_write rfl
  · rw [State.received, State.received, hnext, Nat.add_assoc]

/-- ACCLEN's end with an admitted length (R115). -/
theorem finishLength_of_admitted {s : State} (h1 : 1 ≤ s.leAt s.byteIndex.toNat 2)
    (h2 : s.leAt s.byteIndex.toNat 2 ≤ s.cfg.maxLen) :
    finishLength s = (s.writeField .messageLength (s.leAt s.byteIndex.toNat 2)).advance 2 := by
  have hlt : s.leAt s.byteIndex.toNat 2 < 2 ^ 16 := by
    have hlt := le_lt (s.buf.slice s.byteIndex.toNat 2)
    rwa [Memory.length_slice] at hlt
  have hval := s.readField_writeField_same .messageLength _ 16 rfl hlt
  unfold finishLength
  dsimp only
  rw [if_neg]
  rw [State.readField] at hval
  rw [hval, State.writeField_cfg]
  omega

/-- An accepted byte is counted: by `subIndex` within an entry, by `byteIndex` at its end. -/
theorem runByteOp_received {op : ByteOp} {s t : State} {b : Byte} (h : CursorInv s) (ho : s.selectOp = .ok op)
    (hb : s.byteIn = some b) (hacc : Accepts s b op) (hrun : runByteOp op s = .next t) : t.received = s.received + 1 := by
  have hj := h.subIndex_lt ho
  obtain ⟨-, hw⟩ := opWidth_bounds op
  obtain ⟨-, -, -, -, hcap⟩ := h.legal.bounds
  have hlt : s.received < 500 := h.inRange.trans_le hcap
  have hi : s.byteIndex.toNat < 500 := (Nat.le_add_right _ _).trans_lt hlt
  have hindex : (s.byteIndex + 1#9).toNat + s.subIndex.toNat = s.received + 1 := by
    rw [index_succ_toNat hi le_rfl, State.received, Nat.add_right_comm]
  have hsub : (s.subIndex + 1#3).toNat = s.subIndex.toNat + 1 := subIndex_add_toNat (hj.trans_le hw)
  have hone : opWidth op = 1 → s.subIndex.toNat + 1 = 1 := by omega
  have hbyte : ∀ {c : Byte}, s.byteIn = some c → c = b := fun hc => Option.some.inj (hc.symm.trans hb)
  cases op with
  | sync c =>
    obtain ⟨b', hb', ⟨-, -, rfl⟩ | ⟨hne, -⟩⟩ := execSync_eq_next hrun
    · exact hindex
    · exact absurd (hbyte hb' ▸ hacc) hne
  | cver c =>
    obtain ⟨b', hb', ⟨-, -, rfl⟩ | ⟨hne, -⟩⟩ := execCver_eq_next hrun
    · exact received_advance rfl (hone rfl) hlt
    · exact absurd (hbyte hb' ▸ hacc) hne
  | pass =>
    obtain ⟨b', -, -, rfl⟩ := execPass_eq_next hrun
    exact received_advance rfl (hone rfl) hlt
  | acc16 d | acc32 d =>
    simp only [runByteOp, execAcc16, execAcc32] at hrun
    refine accumulate_received hb (by omega) hrun fun u hend hu _ _ => ?_
    exact received_advance ((State.writeField_byteIndex _ _ _).trans hu) hend hlt
  | acclen =>
    refine accumulate_received hb (by omega) hrun fun u hend hu hcfg hst => ?_
    have hlast : s.subIndex.toNat = 1 := by omega
    have hvalue : u.leAt u.byteIndex.toNat 2 = le [s.buf.read s.byteIndex.toNat, b] := by
      rw [State.received, hlast] at hst
      simp [State.leAt, hu, Memory.slice, hst _]
    obtain ⟨hmin, hmax⟩ := hacc hlast
    rw [finishLength_of_admitted (by rwa [hvalue]) (by rwa [hvalue, hcfg])]
    exact received_advance ((State.writeField_byteIndex _ _ _).trans hu) hend hlt
  | skip =>
    obtain ⟨b', -, rfl⟩ := execSkip_eq_next hrun
    split
    · next hend => exact received_advance rfl (hsub.symm.trans hend) hlt
    · rw [State.received, State.received, hsub, Nat.add_assoc]
  | payf n =>
    obtain ⟨b', -, -, rfl⟩ := copyPayload_eq_next hrun
    exact hindex
  | payv =>
    obtain ⟨b', -, -, rfl⟩ := copyPayload_eq_next hrun
    exact hindex
  | tsum => exact absurd hacc id
  | tcrc =>
    obtain ⟨b', -, -, rfl⟩ := execTcrc_eq_next hrun
    rw [if_neg (by rw [hsub]; exact fun hend => hacc (by omega)), State.received, State.received, hsub, Nat.add_assoc]

/-- An accepted byte completes no frame. -/
theorem runByteOp_not_ready {op : ByteOp} {s t : State} {b : Byte} (hj : s.subIndex.toNat < 4)
    (hr : s.ready = false) (hacc : Accepts s b op) (hrun : runByteOp op s = .next t) : t.ready = false := by
  obtain hsame | hdone := runByteOp_report hrun
  · obtain ⟨-, hkept⟩ := report_eq_iff.1 hsame
    exact hkept.trans hr
  · obtain rfl | ⟨rfl, hfourth⟩ := hdone.completing
    · exact absurd hacc id
    · rw [subIndex_add_toNat hj] at hfourth
      exact absurd (by omega) hacc

/-- An accepted byte is stored at its offset in the frame, or it is one that SKIP counts (R53, R57). -/
theorem Accepts.stored {op : ByteOp} {s t : State} {b : Byte} (hacc : Accepts s b op) (hj : s.subIndex.toNat < opWidth op)
    (h : StoresOnly op b s t) : (op = .skip ∧ SameBuf s t) ∨ (op ≠ .skip ∧ StoredAt s.received b s t) := by
  have hone : opWidth op = 1 → s.received = s.byteIndex.toNat := fun hw => by
    rw [State.received]
    omega
  cases op with
  | sync c | cver c => exact .inr ⟨by simp, by rw [hone rfl]; exact h.1 hacc⟩
  | pass | payf _ | payv | tsum => exact .inr ⟨by simp, by rw [hone rfl]; exact h⟩
  | acc16 _ | acc32 _ | acclen | tcrc => exact .inr ⟨by simp, h⟩
  | skip => exact .inl ⟨rfl, h⟩

/-! ### The reception of a frame -/

/-- The first `n` bytes of a frame with the buffer image `img` have been received, none of them rejected and the frame not
complete. -/
structure InFrame (img : List Byte) (n : Nat) (s : State) : Prop where
  cursorInv : CursorInv s
  notBusy : s.busy = false
  notReady : s.ready = false
  fieldsMatch : s.FieldsMatch
  skipped : s.SkippedCellsReset
  received : s.received = n
  holds : s.Holds img n

/-- At (Sync, 0, 0), the flags cleared, a frame can begin. -/
theorem inFrame_start {s : State} (img : List Byte) (h : s.Inv) (hs : s.busy = false) (hskip : s.SkippedCellsReset)
    (hcur : s.cur = (.sync, 0, 0)) : InFrame img 0 s.clearFlags := by
  obtain ⟨hstage, hi, hj⟩ : s.stage = .sync ∧ s.byteIndex.toNat = 0 ∧ s.subIndex.toNat = 0 := by
    simpa only [State.cur, Prod.mk.injEq] using hcur
  refine ⟨(inv_cursorInv h).congr rfl rfl rfl rfl rfl, hs, rfl, ?_, hskip, ?_, fun x hx => absurd hx (Nat.not_lt_zero x)⟩
  · rw [fieldsMatch_iff]
    intro _ f _ hpast
    simp [State.pastOffset, hstage] at hpast
  · rw [State.received, State.clearFlags_byteIndex, State.clearFlags_subIndex, hi, hj]

/-- What a STEP keeps on its own account: the invariants beside the cursor's, with nothing in progress. -/
theorem stepByte_keeps {img : List Byte} {n : Nat} {s t : State} {b : Byte} (h : InFrame img n s)
    (hrun : stepByte b s = .next t) : CursorInv t ∧ t.busy = false ∧ t.FieldsMatch ∧ t.SkippedCellsReset := by
  obtain ⟨hn, -⟩ := busy_eq_false_iff.1 h.notBusy
  obtain ⟨hcur, hfields⟩ := keptByParts_fieldsMatch.of_stepByte ⟨h.cursorInv, h.fieldsMatch⟩ hrun
  obtain ⟨-, hskip⟩ := keptByParts_skippedCells.of_stepByte ⟨h.cursorInv, h.skipped⟩ hrun
  have htook := stepByte_tookByte hrun
  exact ⟨hcur, busy_eq_false_iff.2 ⟨htook.budget.trans hn, htook.byteIn⟩, hfields, hskip⟩

/-- A byte that is accepted, and is the image's where it is stored, takes the reception one byte further. -/
theorem InFrame.step {img : List Byte} {n : Nat} {s : State} {b : Byte} {op : ByteOp} (h : InFrame img n s)
    (ho : s.selectOp = .ok op) (hacc : Accepts s b op) (himg : img[n]? = some (if op = .skip then s.buf.read n else b)) :
    ∃ t, exec (.step b) s = .next t ∧ t.cfg = s.cfg ∧ InFrame img (n + 1) t := by
  obtain ⟨t, ht⟩ := stepByte_answers h.cursorInv b
  obtain ⟨hcur, hbusy, hfields, hskip⟩ := stepByte_keeps h ht
  have hrun := (stepByte_eq_runByteOp ho b).symm.trans ht
  have hlatch : CursorInv (s.latch b) := h.cursorInv.congr rfl rfl rfl rfl rfl
  have hj := h.cursorInv.subIndex_lt ho
  obtain ⟨-, hw⟩ := opWidth_bounds op
  refine ⟨t, (execStep_of_not_busy h.notBusy b).trans ht, (stepByte_tookByte ht).cfg, hcur, hbusy, ?notReady, hfields, hskip,
    ?received, ?holds⟩
  case notReady => exact runByteOp_not_ready (s := s.latch b) (hj.trans_le hw) rfl hacc hrun
  case received => exact (runByteOp_received (s := s.latch b) hlatch ho rfl hacc hrun).trans (congrArg Nat.succ h.received)
  case holds =>
    obtain ⟨rfl, hsame⟩ | ⟨hne, hst⟩ := hacc.stored hj (runByteOp_storesOnly (s := s.latch b) rfl hrun)
    · exact h.holds.skip hsame (by simpa using himg)
    · rw [h.received] at hst
      exact h.holds.store hst (by simpa [hne] using himg)

/-- If every byte but the last takes the reception one byte further, no STEP before the last reports, and the last one runs on
all but the last byte. -/
theorem feed_frame {img wire : List Byte} {m : Nat} {s : State} (h0 : InFrame img 0 s.clearFlags) (hm : wire.length = m + 1)
    (hstep : ∀ n b u, n < m → wire[n]? = some b → u.cfg = s.cfg → InFrame img n u →
      ∃ t, exec (.step b) u = .next t ∧ t.cfg = u.cfg ∧ InFrame img (n + 1) t) :
    (∀ j, 1 ≤ j → j < m + 1 → ∃ u, feed (wire.take j) s = .next u ∧ u.ready = false) ∧
      ∃ u, u.cfg = s.cfg ∧ InFrame img m u ∧ ∀ b, wire[m]? = some b → feed wire s = exec (.step b) u := by
  have hne {j : Nat} (hj : 1 ≤ j) : wire.take j ≠ [] := by
    rw [← List.length_pos_iff, List.length_take, hm]
    omega
  have hsofar := feed_take_induct (bs := wire) (s := s.clearFlags) (P := fun n u => u.cfg = s.cfg ∧ InFrame img n u)
    (m.le_succ.trans_eq hm.symm) ⟨rfl, h0⟩ fun n b u hn hb ⟨hcfg, h⟩ => by
      obtain ⟨t, ht, htcfg, h⟩ := hstep n b u hn hb hcfg h
      exact ⟨t, ht, htcfg.trans hcfg, h⟩
  refine ⟨fun j hj hlt => ?_, ?_⟩
  · obtain ⟨u, hu, -, h⟩ := hsofar j (by omega)
    exact ⟨u, (feed_clearFlags (hne hj) s).symm.trans hu, h.notReady⟩
  · obtain ⟨u, hu, hcfg, h⟩ := hsofar m le_rfl
    refine ⟨u, hcfg, h, fun b hb => ?_⟩
    rw [← feed_take_succ hb hu, feed_clearFlags (hne (by omega)), List.take_of_length_le hm.le]

/-! ### Where a frame's bytes fall -/

/-- The trailer begins after the payload. -/
theorem CursorInv.trailer_of_received {s : State} (h : CursorInv s) (hn : s.cfg.hdrLen + s.payloadLen ≤ s.received) :
    s.stage = .trailer := by
  rw [State.received] at hn
  cases hs : s.stage with
  | sync =>
    obtain ⟨hi, hj⟩ := h.sync hs
    obtain ⟨-, hsh, -⟩ := h.legal.bounds
    rw [hj, BitVec.toNat_ofNat] at hn
    omega
  | header =>
    obtain ⟨op, ho⟩ := h.selectOp_isOk
    obtain ⟨hat, hj⟩ := h.header hs ho
    obtain ⟨-, hend, -⟩ := hat.headerEntry
    omega
  | payload =>
    obtain ⟨-, hi, hj, -⟩ := h.payload hs
    rw [hj, BitVec.toNat_ofNat] at hn
    omega
  | trailer => rfl

/-- The constant a byte is compared with. -/
def comparedConst : ByteOp → Option Byte
  | .sync c => some c
  | .cver c => some c
  | .pass | .acc16 _ | .acc32 _ | .acclen | .skip | .payf _ | .payv | .tsum | .tcrc => none

theorem accepts_of_comparedConst {op : ByteOp} {b : Byte} (h : comparedConst op = some b) (s : State) :
    Accepts s b op ∧ op ≠ .skip := by
  cases op with
  | sync c | cver c => exact ⟨(Option.some.inj h).symm, by simp⟩
  | pass | acc16 _ | acc32 _ | acclen | skip | payf _ | payv | tsum | tcrc => cases h

end Sys2Proof.Machine

/-! An IMU frame, whole (R71, R150). -/

namespace Sys2Proof.Machine

/-- Every entry of R86 compares its byte with the one of R71. -/
theorem imuEntry_comparedConst {c : Config} (hc : c.Legal) (hp : c.proto = .imu) :
    ∀ i < 7, ∀ op ∈ entryOp c.entries i, opWidth op = 1 ∧ comparedConst op = imuHead[i]? := by
  obtain ⟨-, -, -, -, -, hentries, -⟩ := hc.imu_fields hp
  rw [hentries]
  decide

/-- Before the checksum byte, the IMU format accepts the bytes of R71. -/
theorem imu_step {p : List Byte} {k b : Byte} {n : Nat} {s : State} (h : InFrame (imuHead ++ p ++ [k]) n s)
    (hp : s.cfg.proto = .imu) (hn : n < 37) (hb : (imuHead ++ p ++ [k])[n]? = some b) :
    ∃ t, exec (.step b) s = .next t ∧ t.cfg = s.cfg ∧ InFrame (imuHead ++ p ++ [k]) (n + 1) t := by
  obtain ⟨op, ho⟩ := h.cursorInv.selectOp_isOk
  obtain ⟨-, -, hhdr, -, -, -, -, -, -, hpay⟩ := h.cursorInv.legal.imu_fields hp
  have hj := h.cursorInv.subIndex_lt ho
  have hrec := h.received
  rw [State.received] at hrec
  suffices hacc : Accepts s b op ∧ op ≠ .skip from h.step ho hacc.1 (by rw [if_neg hacc.2]; exact hb)
  obtain ⟨hi, hentry⟩ | ⟨hi, hop⟩ := h.cursorInv.selected ho
  · obtain ⟨hw, hconst⟩ := imuEntry_comparedConst h.cursorInv.legal hp _ (hhdr ▸ hi) op hentry
    obtain rfl : s.byteIndex.toNat = n := by omega
    refine accepts_of_comparedConst (hconst.trans ?_) s
    rwa [List.append_assoc, List.getElem?_append_left (show _ < imuHead.length by rw [hhdr] at hi; exact hi)] at hb
  · rw [hp] at hop
    obtain rfl | rfl := hop
    · exact ⟨trivial, by simp [payloadOp]⟩
    · obtain ⟨hs, -⟩ := selectOp_completing h.cursorInv ho (.inl rfl)
      obtain ⟨hend, -⟩ := h.cursorInv.trailer hs
      rw [hhdr, State.payloadLen, hp] at hend
      dsimp only at hend
      omega

/-- What TSUM finds (R150): the comparison of the byte with the sum of the bytes below it. -/
theorem execTsum_result {b : Byte} {s t : State} {i : Nat} {body : List Byte} (hb : s.byteIn = some b) (hr : s.ready = false)
    (he : s.event = .none) (hi : s.byteIndex.toNat = i) (hbody : s.buf.slice 0 i = body) (h : execTsum s = .next t) :
    t.cur = (.sync, 0, 0) ∧ StoredAt i b s t ∧ t.ready = (b == sum8 body) ∧ t.checkOk = t.ready ∧
      t.event = (if b = sum8 body then .none else .checksumMismatch) ∧ (b = sum8 body → t.length = s.byteIndex + 1#9) := by
  subst hi hbody
  obtain ⟨c, hc, -, ⟨hsum, rfl⟩ | ⟨hsum, rfl⟩⟩ := execTsum_eq_next h <;> obtain rfl := Option.some.inj (hc.symm.trans hb)
  · exact ⟨rfl, storedAt_of_write rfl, by simp [hsum], rfl, by simp [hsum, he], fun _ => rfl⟩
  · exact ⟨rfl, storedAt_of_write rfl, by simp [hsum.symm, hr], by simp [hr], by simp [hsum.symm],
      fun heq => absurd heq.symm hsum⟩

/-- The checksum byte completes an IMU frame (R150). -/
theorem imu_last {p : List Byte} {k : Byte} {s : State} (h : InFrame (imuHead ++ p ++ [k]) 37 s) (hp : s.cfg.proto = .imu)
    (hlen : p.length = 30) :
    ∃ t, exec (.step k) s = .next t ∧ t.cur = (.sync, 0, 0) ∧ t.ready = (k == sum8 (imuHead ++ p)) ∧ t.checkOk = t.ready ∧
      t.event = (if k = sum8 (imuHead ++ p) then .none else .checksumMismatch) ∧ t.buf.slice 0 38 = imuHead ++ p ++ [k] ∧
      (k = sum8 (imuHead ++ p) → t.length.toNat = 38) := by
  obtain ⟨-, -, hhdr, -, -, -, -, -, -, hpay⟩ := h.cursorInv.legal.imu_fields hp
  have hpay : s.payloadLen = 30 := by simp [State.payloadLen, hp, hpay]
  have hs := h.cursorInv.trailer_of_received (by rw [hhdr, hpay, h.received])
  have ho : s.selectOp = .ok .tsum := by rw [selectOp_of_trailer h.cursorInv.legal hs, hp]; rfl
  have hi : s.byteIndex.toNat = 37 := by
    obtain ⟨hi, -⟩ := h.cursorInv.trailer hs
    rw [hi, hhdr, hpay]
  have hhead : (imuHead ++ p).length = 37 := by rw [List.length_append, hlen]; rfl
  have hbody : s.buf.slice 0 37 = imuHead ++ p := by
    rw [h.holds.slice le_rfl, List.drop_zero, List.take_left' hhead]
  obtain ⟨t, ht⟩ := stepByte_answers h.cursorInv k
  obtain ⟨hcur, hst, hready, hcheck, hevent, hlength⟩ :=
    execTsum_result (s := s.latch k) rfl rfl rfl hi hbody ((stepByte_eq_runByteOp ho k).symm.trans ht)
  have hholds : t.Holds (imuHead ++ p ++ [k]) 38 :=
    h.holds.store hst (by rw [List.getElem?_append_right hhead.le, hhead]; rfl)
  refine ⟨t, (execStep_of_not_busy h.notBusy k).trans ht, hcur, hready, hcheck, hevent, ?_, fun heq => ?_⟩
  · rw [hholds.slice le_rfl, List.drop_zero, List.take_of_length_le]
    rw [List.length_append, hhead]
    rfl
  · rw [hlength heq]
    exact (index_succ_toNat (hi.trans_lt (Nat.lt_succ_self 37)) (by decide)).trans (congrArg Nat.succ hi)

/-- Settles O47: the first 37 bytes are accepted, whatever the buffer held, and the 38th is compared with their sum. -/
theorem imuFrameIsAcceptedByItsSum : Obligations.ImuFrameIsAcceptedByItsSum := by
  unfold Obligations.ImuFrameIsAcceptedByItsSum
  intro s p k hinv hs hp hcur hlen
  have hhead : (imuHead ++ p).length = 37 := by rw [List.length_append, hlen]; rfl
  have hskip : s.SkippedCellsReset := fun hgps => by simp [hp] at hgps
  obtain ⟨hearly, u, hcfg, h, hlast⟩ := feed_frame (wire := imuHead ++ p ++ [k]) (inFrame_start _ hinv hs hskip hcur)
    (by rw [List.length_append, hhead]; rfl) fun n b u hn hb hcfg h => imu_step h (by rw [hcfg, hp]) hn hb
  obtain ⟨t, ht, hresult⟩ := imu_last h (by rw [hcfg, hp]) hlen
  exact ⟨hearly, t, (hlast k (by rw [List.getElem?_append_right hhead.le, hhead]; rfl)).trans ht, hresult⟩

end Sys2Proof.Machine

/-! Values on the wire: the merge undoes the split into bytes, and the order of the CRC's bytes (R51, R52, R145, R152). -/

namespace Sys2Proof.Machine

theorem toNat_extractLsb'_byte {w : Nat} (v : BitVec w) (k : Nat) : (v.extractLsb' k 8).toNat = v.toNat / 2 ^ k % 256 := by
  rw [BitVec.extractLsb'_toNat, Nat.shiftRight_eq_div_pow]

theorem le_wire16 (v : Half) : le (wire16 v) = v.toNat := by
  have hlt := v.isLt
  simp only [wire16, le, toNat_extractLsb'_byte]
  omega

theorem le_wire32 (v : Word) : le (wire32 v) = v.toNat := by
  have hlt := v.isLt
  simp only [wire32, le, toNat_extractLsb'_byte]
  omega

/-- The merge loses nothing but the length. -/
theorem le_inj {xs ys : List Byte} (hlen : xs.length = ys.length) (h : le xs = le ys) : xs = ys := by
  induction xs generalizing ys with
  | nil => exact (List.length_eq_zero_iff.1 hlen.symm).symm
  | cons x xs ih =>
    cases ys with
    | nil => cases hlen
    | cons y ys =>
      have hx := x.isLt
      have hy := y.isLt
      rw [le, le] at h
      rw [BitVec.eq_of_toNat_eq (show x.toNat = y.toNat by omega), ih (Nat.succ.inj hlen) (by omega)]

theorem wire32_bswap32 (v : Word) : wire32 (bswap32 v) = bigEndian32 v := by
  have hupper {k : Nat} (hk : 8 ≤ k) : (bswap32 v).extractLsb' k 8 =
      (v.extractLsb' 0 8 ++ v.extractLsb' 8 8 ++ v.extractLsb' 16 8).extractLsb' (k - 8) 8 :=
    BitVec.extractLsb'_append_eq_of_le hk
  have h0 : (bswap32 v).extractLsb' 0 8 = v.extractLsb' 24 8 := BitVec.extractLsb'_append_eq_right
  have h8 : (bswap32 v).extractLsb' 8 8 = v.extractLsb' 16 8 := (hupper (by decide)).trans BitVec.extractLsb'_append_eq_right
  have h16 : (bswap32 v).extractLsb' 16 8 = v.extractLsb' 8 8 := by
    rw [hupper (by decide), BitVec.extractLsb'_append_eq_of_le (by decide)]
    exact BitVec.extractLsb'_append_eq_right
  have h24 : (bswap32 v).extractLsb' 24 8 = v.extractLsb' 0 8 := by
    rw [hupper (by decide), BitVec.extractLsb'_append_eq_of_le (by decide)]
    exact BitVec.extractLsb'_append_eq_left
  rw [wire32, bigEndian32, h0, h8, h16, h24]

/-- The comparison of R152 holds exactly for the CRC's bytes, the most significant first. -/
theorem bswap32_eq_le_iff {c : Word} {tr : List Byte} (htr : tr.length = 4) :
    bswap32 c = BitVec.ofNat 32 (le tr) ↔ tr = bigEndian32 c := by
  have hlt : le tr < 2 ^ 32 := by
    have hlt := le_lt tr
    rwa [htr] at hlt
  rw [← BitVec.toNat_inj, BitVec.toNat_ofNat, Nat.mod_eq_of_lt hlt, ← le_wire32, wire32_bswap32]
  exact ⟨fun h => le_inj htr h.symm, fun h => by rw [h]⟩

end Sys2Proof.Machine

/-! A GPS frame, whole (R40, R52, R57, R73, R152, R153). -/

namespace Sys2Proof.Machine

/-! ### The frame and its image in the buffer -/

/-- Offsets 0 to 27, one by one (R73). -/
theorem GpsHeader.bytes_eq (hd : GpsHeader) (r0 r1 : Byte) : hd.bytes r0 r1 =
    [0xAA#8, 0x44#8, 0x12#8, 0x1C#8, hd.messageId.extractLsb' 0 8, hd.messageId.extractLsb' 8 8,
      hd.messageType, hd.portAddress, hd.messageLength.extractLsb' 0 8, hd.messageLength.extractLsb' 8 8,
      hd.sequenceNumber.extractLsb' 0 8, hd.sequenceNumber.extractLsb' 8 8, hd.idleTime, hd.timeStatus,
      hd.timeWeek.extractLsb' 0 8, hd.timeWeek.extractLsb' 8 8,
      hd.timeMs.extractLsb' 0 8, hd.timeMs.extractLsb' 8 8, hd.timeMs.extractLsb' 16 8, hd.timeMs.extractLsb' 24 8,
      hd.status.extractLsb' 0 8, hd.status.extractLsb' 8 8, hd.status.extractLsb' 16 8, hd.status.extractLsb' 24 8,
      r0, r1, hd.swVersion.extractLsb' 0 8, hd.swVersion.extractLsb' 8 8] := by
  simp only [bytes, wire16, wire32, List.cons_append, List.nil_append]

theorem GpsHeader.length_wire (hd : GpsHeader) : hd.wire.length = 28 := by
  rw [wire, bytes_eq]
  rfl

theorem GpsHeader.length_stored (hd : GpsHeader) : hd.stored.length = 28 := by
  rw [stored, bytes_eq]
  rfl

/-- The image differs from the wire in the two bytes that SKIP counts (R57). -/
theorem gps_image_eq (hd : GpsHeader) (p tr : List Byte) :
    hd.stored ++ p ++ tr = ((hd.wire ++ p ++ tr).set 24 Config.bufReset).set 25 Config.bufReset := by
  rw [GpsHeader.stored, GpsHeader.wire, hd.bytes_eq, hd.bytes_eq]
  rfl

theorem gps_image_skipped (hd : GpsHeader) (p tr : List Byte) {n : Nat} (h : n = 24 ∨ n = 25) :
    (hd.stored ++ p ++ tr)[n]? = some Config.bufReset := by
  rw [GpsHeader.stored, hd.bytes_eq]
  obtain rfl | rfl := h <;> rfl

theorem gps_image_getElem? (hd : GpsHeader) (p tr : List Byte) {n : Nat} (h24 : n ≠ 24) (h25 : n ≠ 25) :
    (hd.stored ++ p ++ tr)[n]? = (hd.wire ++ p ++ tr)[n]? := by
  rw [gps_image_eq, List.getElem?_set_ne h25.symm, List.getElem?_set_ne h24.symm]

/-- The bytes of R73 that the descriptor of R87 compares. -/
def gpsHead : List Byte := [0xAA#8, 0x44#8, 0x12#8, 0x1C#8]

theorem gps_wire_head (hd : GpsHeader) (p tr : List Byte) {n : Nat} (h : n < 4) : (hd.wire ++ p ++ tr)[n]? = gpsHead[n]? := by
  rw [GpsHeader.wire, hd.bytes_eq]
  exact List.getElem?_append_left (l₁ := gpsHead) h

/-- A Header entry that takes any byte. -/
def takesAnyByte : ByteOp → Bool
  | .pass | .acc16 _ | .acc32 _ | .skip => true
  | .sync _ | .cver _ | .acclen | .payf _ | .payv | .tsum | .tcrc => false

/-- The entries of R87: four that compare their bytes with those of R73, then ACCLEN at 8, SKIP at 24, and entries that
take any byte. -/
theorem gpsEntry_cases {c : Config} (hc : c.Legal) (hp : c.proto = .gps) :
    ∀ i < 28, ∀ op ∈ entryOp c.entries i,
      (i < 4 ∧ opWidth op = 1 ∧ comparedConst op = gpsHead[i]?) ∨ (op = .acclen ∧ i = 8) ∨
        (takesAnyByte op = true ∧ (op = .skip → i = 24)) := by
  obtain ⟨-, -, -, -, -, hentries, -⟩ := hc.gps_fields hp
  rw [hentries]
  decide

theorem accepts_of_takesAnyByte {op : ByteOp} (h : takesAnyByte op = true) (s : State) (b : Byte) : Accepts s b op := by
  cases op with
  | pass | acc16 _ | acc32 _ | skip => trivial
  | sync _ | cver _ | acclen | payf _ | payv | tsum | tcrc => cases h

/-- A register that agrees with received bytes of the image holds their value (R52). -/
theorem State.Holds.register_eq {t : State} {img : List Byte} {n a k w : Nat} {r v : BitVec w} (h : t.Holds img n)
    (hend : a + k ≤ n) (hreg : r.toNat = le (t.buf.slice a k)) (himg : le ((img.drop a).take k) = v.toNat) : r = v := by
  rw [h.slice hend, himg] at hreg
  exact BitVec.eq_of_toNat_eq hreg

section
variable {hd : GpsHeader} {p tr : List Byte} {n : Nat} {s : State}

/-- Once its field has been received, `messageLength` is the header's (R52). -/
theorem gps_messageLength (h : InFrame (hd.stored ++ p ++ tr) n s) (hp : s.cfg.proto = .gps) (hi : 10 ≤ s.byteIndex.toNat) :
    s.messageLength = hd.messageLength := by
  have hrec := h.received
  rw [State.received] at hrec
  obtain ⟨-, hlength, -⟩ := h.fieldsMatch hp
  have hholds := h.holds
  rw [GpsHeader.stored, hd.bytes_eq] at hholds
  exact hholds.register_eq (by omega)
    (hlength ((pastOffset_iff h.cursorInv hp h.notReady (by decide) (by decide)).2 hi)) (le_wire16 _)

/-- Before the last trailer byte, the GPS format accepts the bytes of R73. -/
theorem gps_step {b : Byte} (h : InFrame (hd.stored ++ p ++ tr) n s) (hp : s.cfg.proto = .gps)
    (hlen : p.length = hd.messageLength.toNat) (hmin : 1 ≤ p.length) (hmax : p.length ≤ 468) (hn : n < 31 + p.length)
    (hb : (hd.wire ++ p ++ tr)[n]? = some b) :
    ∃ t, exec (.step b) s = .next t ∧ t.cfg = s.cfg ∧ InFrame (hd.stored ++ p ++ tr) (n + 1) t := by
  obtain ⟨op, ho⟩ := h.cursorInv.selectOp_isOk
  obtain ⟨-, -, hhdr, -, hmaxLen, -⟩ := h.cursorInv.legal.gps_fields hp
  have hj := h.cursorInv.subIndex_lt ho
  have hrec := h.received
  rw [State.received] at hrec
  have himg (hne : op ≠ .skip) (h24 : n ≠ 24) (h25 : n ≠ 25) :
      (hd.stored ++ p ++ tr)[n]? = some (if op = .skip then s.buf.read n else b) := by
    rw [gps_image_getElem? hd p tr h24 h25, hb, if_neg hne]
  obtain ⟨hi, hentry⟩ | ⟨hi, hop⟩ := h.cursorInv.selected ho
  · rw [hhdr] at hi
    obtain ⟨hi4, hw, hconst⟩ | ⟨rfl, hi8⟩ | ⟨hany, hskip⟩ := gpsEntry_cases h.cursorInv.legal hp _ hi op hentry
    · obtain rfl : s.byteIndex.toNat = n := by omega
      rw [← gps_wire_head hd p tr hi4, hb] at hconst
      obtain ⟨hacc, hne⟩ := accepts_of_comparedConst hconst s
      exact h.step ho hacc (himg hne (by omega) (by omega))
    · have hj : s.subIndex.toNat < 2 := hj
      refine h.step ho (fun hone => ?_) (himg (by simp) (by omega) (by omega))
      obtain rfl : n = 9 := by omega
      have hlow := h.holds 8 (by decide)
      rw [GpsHeader.stored, hd.bytes_eq] at hlow
      rw [GpsHeader.wire, hd.bytes_eq] at hb
      have hlow : hd.messageLength.extractLsb' 0 8 = s.buf.read 8 := Option.some.inj hlow
      have hhigh : hd.messageLength.extractLsb' 8 8 = b := Option.some.inj hb
      rw [hi8, ← hlow, ← hhigh, hmaxLen, show le [_, _] = _ from le_wire16 hd.messageLength, ← hlen]
      exact ⟨hmin, hmax⟩
    · refine h.step ho (accepts_of_takesAnyByte hany s b) ?_
      obtain rfl | hlow | hhigh := gpsEntry_skips h.cursorInv.legal hp _ hi op hentry
      · have hi24 := hskip rfl
        have hj : s.subIndex.toNat < 2 := hj
        have hn : n = 24 ∨ n = 25 := by omega
        obtain ⟨h24, h25⟩ := h.skipped hp
        rw [gps_image_skipped hd p tr hn, if_pos rfl]
        obtain rfl | rfl := hn
        · rw [h24]
        · rw [h25]
      · exact himg (fun heq => by have := hskip heq; omega) (by omega) (by omega)
      · exact himg (fun heq => by have := hskip heq; omega) (by omega) (by omega)
  · rw [hp] at hop
    obtain rfl | rfl := hop
    · exact h.step ho trivial (himg (by simp [payloadOp]) (by omega) (by omega))
    · refine h.step ho (fun hthree => ?_) (himg (by simp [trailerOp]) (by omega) (by omega))
      obtain ⟨hs, -⟩ := selectOp_completing h.cursorInv ho (.inr rfl)
      obtain ⟨hend, -⟩ := h.cursorInv.trailer hs
      have hpay : s.payloadLen = p.length := by
        rw [State.payloadLen, hp, hlen, ← gps_messageLength h hp (by omega)]
      omega

/-- What TCRC finds at its fourth byte (R152, R153). -/
theorem execTcrc_result {b : Byte} {t : State} {i : Nat} (hb : s.byteIn = some b) (hi : s.byteIndex.toNat = i)
    (hj : s.subIndex.toNat = 3) (hn : s.received = n) (h : execTcrc s = .next t) :
    t.cur = (.sync, 0, 0) ∧ t.ready = true ∧ t.length = s.byteIndex + 4#9 ∧ StoredAt n b s t ∧
      t.calcCheck = crc32 s.cfg (t.buf.slice 0 i) ∧
      t.checkOk = (bswap32 t.calcCheck == BitVec.ofNat 32 (le (t.buf.slice i 4))) ∧ t.event = crcEvent t.checkOk := by
  subst hi hn
  obtain ⟨c, hc, -, rfl⟩ := execTcrc_eq_next h
  obtain rfl := Option.some.inj (hc.symm.trans hb)
  rw [if_pos (by rw [subIndex_add_toNat (by omega), hj])]
  exact ⟨rfl, rfl, rfl, storedAt_of_write rfl, rfl, rfl, rfl⟩

/-- The last trailer byte completes the frame: the buffer holds its image, the field registers agree with the buffer, and
the CRC of the image below the trailer has been compared with the trailer. -/
theorem gps_last {b : Byte} (h : InFrame (hd.stored ++ p ++ tr) (31 + p.length) s) (hp : s.cfg.proto = .gps)
    (hlen : p.length = hd.messageLength.toNat) (hmax : p.length ≤ 468) (htr : tr.length = 4)
    (hb : (hd.wire ++ p ++ tr)[31 + p.length]? = some b) :
    ∃ t, exec (.step b) s = .next t ∧ t.cfg = s.cfg ∧ t.cur = (.sync, 0, 0) ∧ t.ready = true ∧
      t.length.toNat = 32 + p.length ∧ t.FieldsMatch ∧ t.Holds (hd.stored ++ p ++ tr) (32 + p.length) ∧
      t.calcCheck = crc32 s.cfg (hd.stored ++ p) ∧
      t.checkOk = (tr == bigEndian32 t.calcCheck) ∧ t.event = crcEvent t.checkOk := by
  obtain ⟨-, -, hhdr, -⟩ := h.cursorInv.legal.gps_fields hp
  obtain ⟨op, ho⟩ := h.cursorInv.selectOp_isOk
  have hj := (h.cursorInv.subIndex_lt ho).trans_le (opWidth_bounds op).2
  have hrec : s.byteIndex.toNat + s.subIndex.toNat = 31 + p.length := h.received
  have hpay : s.payloadLen = p.length := by
    rw [State.payloadLen, hp, hlen, ← gps_messageLength h hp (by omega)]
  have hs := h.cursorInv.trailer_of_received (by rw [hhdr, hpay, h.received]; omega)
  have ho : s.selectOp = .ok .tcrc := by rw [selectOp_of_trailer h.cursorInv.legal hs, hp]; rfl
  have hi : s.byteIndex.toNat = 28 + p.length := by
    obtain ⟨hi, -⟩ := h.cursorInv.trailer hs
    rw [hi, hhdr, hpay]
  obtain ⟨t, ht⟩ := stepByte_answers h.cursorInv b
  obtain ⟨-, -, hfields, -⟩ := stepByte_keeps h ht
  obtain ⟨hcur, hready, hlength, hst, hcalc, hcheck, hevent⟩ := execTcrc_result (s := s.latch b) rfl hi
    (show s.subIndex.toNat = 3 by omega) h.received ((stepByte_eq_runByteOp ho b).symm.trans ht)
  have hholds : t.Holds (hd.stored ++ p ++ tr) (32 + p.length) := by
    rw [show 32 + p.length = 31 + p.length + 1 by omega]
    exact h.holds.store hst (by rw [gps_image_getElem? hd p tr (by omega) (by omega), hb])
  have hbody : (hd.stored ++ p).length = 28 + p.length := by rw [List.length_append, hd.length_stored]
  refine ⟨t, (execStep_of_not_busy h.notBusy b).trans ht, (stepByte_tookByte ht).cfg, hcur, hready, ?length, hfields,
    hholds, ?crc, ?check, hevent⟩
  case length =>
    rw [hlength]
    exact (index_add_toNat (i := s.byteIndex) 4 (by omega)).trans (by omega)
  case crc =>
    rw [hcalc, hholds.slice (by omega), List.drop_zero, List.take_left' hbody]
    rfl
  case check =>
    rw [hcheck, hholds.slice (by omega), List.drop_left' hbody, List.take_of_length_le htr.le, Bool.eq_iff_iff, beq_iff_eq,
      beq_iff_eq]
    exact bswap32_eq_le_iff htr

end

/-- The field registers of a reported frame are those its header has on the wire (R40, R52). -/
theorem gps_fields {hd : GpsHeader} {p tr : List Byte} {t : State} (h : t.FieldsMatch) (hp : t.cfg.proto = .gps)
    (hready : t.ready = true) (hholds : t.Holds (hd.stored ++ p ++ tr) (32 + p.length)) :
    t.messageId = hd.messageId ∧ t.messageLength = hd.messageLength ∧ t.sequenceNumber = hd.sequenceNumber ∧
      t.timeWeek = hd.timeWeek ∧ t.timeMs = hd.timeMs ∧ t.status = hd.status ∧ t.swVersion = hd.swVersion := by
  rw [GpsHeader.stored, hd.bytes_eq] at hholds
  have hpast (k : Nat) : t.pastOffset k := .inr (.inr (.inr hready))
  obtain ⟨hid, hlength, hseq, hweek, hms, hstatus, hsw⟩ := h hp
  exact ⟨hholds.register_eq (by omega) (hid (hpast 6)) (le_wire16 _),
    hholds.register_eq (by omega) (hlength (hpast 10)) (le_wire16 _),
    hholds.register_eq (by omega) (hseq (hpast 12)) (le_wire16 _),
    hholds.register_eq (by omega) (hweek (hpast 16)) (le_wire16 _),
    hholds.register_eq (by omega) (hms (hpast 20)) (le_wire32 _),
    hholds.register_eq (by omega) (hstatus (hpast 24)) (le_wire32 _),
    hholds.register_eq (by omega) (hsw (hpast 28)) (le_wire16 _)⟩

/-- Settles O48: all bytes but the last are accepted, and the last completes the frame; the field registers are those of its
buffer bytes. -/
theorem gpsFrameIsReportedWithItsFields : Obligations.GpsFrameIsReportedWithItsFields := by
  unfold Obligations.GpsFrameIsReportedWithItsFields
  intro s hd p tr hinv hs hp hskip hcur hlen hmin hmax htr
  have hbody : (hd.wire ++ p).length = 28 + p.length := by rw [List.length_append, hd.length_wire]
  have htotal : (hd.wire ++ p ++ tr).length = 31 + p.length + 1 := by rw [List.length_append, hbody, htr]; omega
  obtain ⟨hearly, u, hcfg, h, hlast⟩ := feed_frame (inFrame_start (hd.stored ++ p ++ tr) hinv hs hskip hcur) htotal
    fun n b u hn hb hcfg h => gps_step h (by rw [hcfg, hp]) hlen hmin hmax hn hb
  have hb := List.getElem?_eq_getElem (show 31 + p.length < (hd.wire ++ p ++ tr).length by omega)
  obtain ⟨t, ht, htcfg, hcur, hready, hlength, hfields, hholds, hcalc, hcheck, hevent⟩ :=
    gps_last h (by rw [hcfg, hp]) hlen hmax htr hb
  rw [hcfg] at hcalc
  obtain ⟨hid, hlen', hseq, hweek, hms, hstatus, hsw⟩ := gps_fields hfields (by rw [htcfg, hcfg, hp]) hready hholds
  refine ⟨fun j hj hlt => hearly j hj (by omega), t, (hlast _ hb).trans ht, hcur, hready, hlength, hid, hlen', hseq, hweek,
    hms, hstatus, hsw, ?_, hcalc, ?_, ?_⟩
  · rw [hholds.slice (by omega), List.drop_zero, List.take_of_length_le]
    rw [List.length_append, List.length_append, htr, hd.length_stored]
    omega
  · rw [hcheck, hcalc]
  · rw [hevent, hcheck, hcalc]
    simp [crcEvent]

end Sys2Proof.Machine

/-! The transition table (R105): the cursor, `ready` and `event` that each byte operation leaves, and the STEP (R100 to R102). -/

namespace Sys2Proof.Machine

/-- The columns of R105: the cursor, `ready` and `event`. -/
def State.columns (s : State) : (Stage × Nat × Nat) × Bool × Event := (s.cur, s.ready, s.event)

theorem columns_eq_iff {s : State} {cur : Stage × Nat × Nat} {ready : Bool} {event : Event} :
    s.columns = (cur, ready, event) ↔ s.cur = cur ∧ s.ready = ready ∧ s.event = event := by
  simp [State.columns]

/-! ### SYNC -/

theorem execSync_columns {c b : Byte} {s t : State} (hb : s.byteIn = some b) (hi : s.byteIndex.toNat < 500)
    (h : execSync c s = .next t) :
    t.columns = if b = c then
        ((if s.byteIndex.toNat + 1 = s.cfg.syncLen then .header else s.stage, s.byteIndex.toNat + 1, s.subIndex.toNat),
          s.ready, s.event)
      else (resync, s.ready, .syncMismatch) := by
  obtain ⟨b', hb', hcase⟩ := execSync_eq_next h
  obtain rfl := Option.some.inj (hb'.symm.trans hb)
  obtain ⟨heq, -, rfl⟩ | ⟨hne, rfl⟩ := hcase
  · rw [if_pos heq, ← index_succ_toNat hi le_rfl]
    rfl
  · rw [if_neg hne]
    rfl

/-- SYNC answers with `byteIndex` in range, whatever `subIndex` holds. -/
theorem execSync_answers {b : Byte} {s : State} (hb : s.byteIn = some b) (hi : s.byteIndex.toNat < s.cfg.cap) (c : Byte) :
    ∃ t, execSync c s = .next t := by
  rw [execSync, takeInput_some hb]
  split
  · exact storeByte_answers hi fun u => ⟨_, rfl⟩
  · exact ⟨_, rfl⟩

/-- In the Sync stage the selected operation is SYNC of `SYNCSEQ[byteIndex]` (R101). -/
theorem selectOp_eq_sync_iff {s : State} {k : Byte} (hc : s.cfg.Legal) (hs : s.stage = .sync)
    (hi : s.byteIndex.toNat < s.cfg.syncLen) :
    s.selectOp = .ok (.sync k) ↔ s.cfg.syncSeq[s.byteIndex.toNat]? = some k := by
  rw [selectOp_eq_ok_iff_entryOp (.inl hs), entryOp_sync hc _ hi, Option.map_eq_some_iff]
  simp

theorem syncSeq_eq {c : Config} (hc : c.Legal) :
    c.syncSeq = if c.proto = .imu then [0xFF#8, 0xFF#8, 0xFF#8, 0xFF#8] else [0xAA#8, 0x44#8, 0x12#8] := by
  cases hp : c.proto with
  | imu =>
    obtain ⟨-, -, -, -, -, -, -, -, hseq, -⟩ := hc.imu_fields hp
    exact hseq
  | gps =>
    obtain ⟨-, -, -, -, -, -, -, -, hseq, -⟩ := hc.gps_fields hp
    exact hseq

theorem TookByte.byteTaken {s t : State} (h : TookByte s t) : ByteTaken s t :=
  ⟨h.byteIn, ⟨h.attempts, h.acqResult, h.budget⟩, ⟨h.cfg, h.commands, h.source, h.freeReads⟩⟩

/-! ### The accumulate contract, `advance` and the end of ACCLEN -/

/-- The state after an accumulate entry has stored and counted its byte (R118). -/
def State.counted (s : State) (b : Byte) : State :=
  { s with
    byteIn := none
    buf := s.buf.write (s.byteIndex.toNat + s.subIndex.toNat) b
    subIndex := s.subIndex + 1#3 }

/-- The bytes of the field up to and with the one just counted. -/
theorem counted_slice (s : State) (b : Byte) :
    (s.counted b).buf.slice s.byteIndex.toNat (s.subIndex.toNat + 1) =
      s.buf.slice s.byteIndex.toNat s.subIndex.toNat ++ [b] := by
  rw [Memory.slice_snoc, State.counted, Memory.slice_write _ _ _ _ _ (.inr le_rfl), Memory.read_write, if_pos rfl]

/-- The bytes before the field are kept. -/
theorem counted_slice_before (s : State) (b : Byte) :
    (s.counted b).buf.slice 0 s.byteIndex.toNat = s.buf.slice 0 s.byteIndex.toNat :=
  Memory.slice_write _ _ _ _ _ (.inr (by omega))

/-- An accumulate entry counts its byte in `subIndex`, or ends with `fin` (R118). -/
theorem accumulate_columns {w : Nat} {fin : State → State} {s t : State} {b : Byte} (hb : s.byteIn = some b)
    (hj : s.subIndex.toNat < w) (hw : w ≤ 4) (h : accumulate w fin s = .next t) :
    t.columns = if s.subIndex.toNat + 1 < w then
        ((s.stage, s.byteIndex.toNat, s.subIndex.toNat + 1), s.ready, s.event)
      else (fin (s.counted b)).columns := by
  obtain ⟨b', hb', -, rfl⟩ := accumulate_eq_next h
  obtain rfl := Option.some.inj (hb'.symm.trans hb)
  have hnext := subIndex_add_toNat (hj.trans_le hw)
  split
  · next hend =>
    rw [if_neg (by omega)]
    rfl
  · next hmid =>
    rw [if_pos (by omega), ← hnext]
    rfl

/-- `advance` in the Header stage (R110, R117). -/
theorem columns_advance {s : State} {w : Nat} (hs : s.stage = .header) (hi : s.byteIndex.toNat + w < 512) :
    (s.advance w).columns = (headerNext s (s.byteIndex.toNat + w), s.ready, s.event) := by
  rw [State.columns, State.cur, State.advance_stage, State.advance_byteIndex, State.advance_subIndex, index_add_toNat w hi, hs,
    headerNext, State.advance_ready, State.advance_event]
  split <;> rfl

theorem columns_writeField_advance (s : State) (d : Dest) (v w : Nat) :
    ((s.writeField d v).advance w).columns = (s.advance w).columns := by
  simp [State.columns, State.cur]

/-- ACCLEN ends by the value it has assembled (R115). -/
theorem finishLength_eq (s : State) :
    finishLength s =
      if s.leAt s.byteIndex.toNat 2 = 0 ∨ s.cfg.maxLen < s.leAt s.byteIndex.toNat 2 then
        (s.writeField .messageLength (s.leAt s.byteIndex.toNat 2)).raise .headerFieldInvalid
      else (s.writeField .messageLength (s.leAt s.byteIndex.toNat 2)).advance 2 := by
  have hlt : s.leAt s.byteIndex.toNat 2 < 2 ^ 16 := by
    have hlt := le_lt (s.buf.slice s.byteIndex.toNat 2)
    rwa [Memory.length_slice] at hlt
  have hval : (s.writeField .messageLength (s.leAt s.byteIndex.toNat 2)).messageLength.toNat = s.leAt s.byteIndex.toNat 2 :=
    s.readField_writeField_same .messageLength _ 16 rfl hlt
  unfold finishLength
  dsimp only
  rw [hval, State.writeField_cfg]

/-- The only ACCLEN entry is the GPS one at offset 8 (R87). -/
theorem acclen_entry {c : Config} (hc : c.Legal) :
    ∀ i < c.hdrLen, entryOp c.entries i = some .acclen → i = 8 ∧ c.maxLen = 468 ∧ c.hdrLen = 28 :=
  legal_forall (P := fun c => ∀ i < c.hdrLen, entryOp c.entries i = some .acclen → i = 8 ∧ c.maxLen = 468 ∧ c.hdrLen = 28)
    (Bool.forall_bool.2 ⟨by decide, by decide⟩) (Bool.forall_bool.2 ⟨by decide, by decide⟩) hc

/-! ### A byte operation that is due -/

/-- The byte `b` waits for its operation inside a STEP (R100): the flags are cleared and the cursor is one R27 allows. -/
structure Due (b : Byte) (s : State) : Prop where
  cursorInv : CursorInv s
  byteIn : s.byteIn = some b
  ready : s.ready = false
  event : s.event = .none

theorem due_latch {s : State} (h : CursorInv s) (b : Byte) : Due b (s.latch b) :=
  ⟨h.congr rfl rfl rfl rfl rfl, rfl, rfl, rfl⟩

section
variable {b : Byte} {op : ByteOp} {s t : State} (h : Due b s)
include h

/-- The Sync rows. -/
theorem Due.sync_columns (hs : s.stage = .sync) (ho : s.selectOp = .ok op) (hrun : runByteOp op s = .next t) :
    t.columns = transition s b := by
  obtain ⟨hi, hj⟩ := h.cursorInv.sync hs
  obtain ⟨-, hsh, hhdr, -⟩ := h.cursorInv.legal.bounds
  obtain ⟨c, rfl⟩ := selectOp_of_sync h.cursorInv hs ho
  have hseq : s.cfg.syncSeq[s.byteIndex.toNat]? = some c := (selectOp_eq_sync_iff h.cursorInv.legal hs hi).1 ho
  rw [execSync_columns h.byteIn (by omega) hrun, transition, hs, h.ready, h.event, hj]
  dsimp only
  rw [hseq]
  by_cases heq : b = c
  · rw [if_pos heq, if_pos (congrArg some heq.symm)]
    by_cases hend : s.byteIndex.toNat + 1 = s.cfg.syncLen
    · rw [if_pos hend, if_neg hend.not_lt, hend]
      rfl
    · rw [if_neg hend, if_pos (by omega)]
      rfl
  · rw [if_neg heq, if_neg fun hcb => heq (Option.some.inj hcb).symm]

/-- CVER's row: the constant's byte finishes the entry, any other resyncs. -/
theorem Due.cver_columns {c : Byte} (hs : s.stage = .header) (hi : s.byteIndex.toNat + 1 < 512)
    (hrun : execCver c s = .next t) : t.columns = headerRow s b (.cver c) := by
  obtain ⟨b', hb, hcase⟩ := execCver_eq_next hrun
  obtain rfl := Option.some.inj (hb.symm.trans h.byteIn)
  rw [headerRow, ← h.ready, ← h.event]
  obtain ⟨heq, -, rfl⟩ | ⟨hne, rfl⟩ := hcase
  · rw [if_pos heq]
    exact columns_advance hs hi
  · rw [if_neg hne]
    rfl

/-- PASS's row. -/
theorem Due.pass_columns (hs : s.stage = .header) (hi : s.byteIndex.toNat + 1 < 512) (hrun : execPass s = .next t) :
    t.columns = headerRow s b .pass := by
  obtain ⟨b', -, -, rfl⟩ := execPass_eq_next hrun
  rw [headerRow, ← h.ready, ← h.event]
  exact columns_advance hs hi

/-- SKIP's row. -/
theorem Due.skip_columns (hs : s.stage = .header) (hi : s.byteIndex.toNat + 2 < 512) (hj : s.subIndex.toNat < 2)
    (hrun : execSkip s = .next t) : t.columns = fieldRow s 2 := by
  obtain ⟨b', -, rfl⟩ := execSkip_eq_next hrun
  have hnext := subIndex_add_toNat (hj.trans (by decide))
  rw [fieldRow, ← h.ready, ← h.event]
  split
  · next hend =>
    rw [if_neg (by omega)]
    exact columns_advance hs hi
  · next hmid =>
    rw [if_pos (by omega), ← hnext, ← hs]
    rfl

/-- An accumulate entry whose end is `advance` takes the row of a field without validation. -/
theorem Due.field_columns {w : Nat} {fin : State → State} (hs : s.stage = .header) (hi : s.byteIndex.toNat + w < 512)
    (hj : s.subIndex.toNat < w) (hw : w ≤ 4) (hfin : ∀ u, (fin u).columns = (u.advance w).columns)
    (hrun : accumulate w fin s = .next t) : t.columns = fieldRow s w := by
  have hend : ((s.counted b).advance w).columns = (headerNext s (s.byteIndex.toNat + w), s.ready, s.event) :=
    columns_advance hs hi
  rw [accumulate_columns h.byteIn hj hw hrun, hfin, hend, hs, h.ready, h.event, fieldRow]

/-- ACCLEN's row, at the offset and with the bound of the GPS format. -/
theorem Due.acclen_columns (hs : s.stage = .header) (hj : s.subIndex.toNat < 2) (hi : s.byteIndex.toNat = 8)
    (hmax : s.cfg.maxLen = 468) (hhdr : s.cfg.hdrLen = 28) (hrun : execAcclen s = .next t) :
    t.columns = headerRow s b .acclen := by
  rw [accumulate_columns h.byteIn hj (by decide) hrun, headerRow, hs, h.ready, h.event]
  by_cases hfirst : s.subIndex.toNat = 0
  · rw [if_pos (by omega), if_pos hfirst, hfirst]
  · have hlast : s.subIndex.toNat = 1 := by omega
    have hvalue : (s.counted b).leAt (s.counted b).byteIndex.toNat 2 = (s.buf.read 8).toNat + 256 * b.toNat := by
      have hbytes := counted_slice s b
      rw [hlast, hi] at hbytes
      rw [State.leAt, show (s.counted b).byteIndex.toNat = 8 from hi, hbytes]
      rfl
    have hnext : ((s.counted b).advance 2).columns = (headerNext s (s.byteIndex.toNat + 2), s.ready, s.event) :=
      columns_advance hs (show s.byteIndex.toNat + 2 < 512 by omega)
    rw [if_neg (by omega), if_neg hfirst, finishLength_eq, hvalue, show (s.counted b).cfg.maxLen = 468 from hmax]
    split
    · rw [← h.ready]
      rfl
    · rw [columns_writeField_advance, hnext, headerNext, if_neg (by omega), h.ready, h.event]

/-- The Header rows. -/
theorem Due.header_columns (hs : s.stage = .header) (ho : s.selectOp = .ok op) (hrun : runByteOp op s = .next t) :
    t.columns = transition s b := by
  obtain ⟨hat, hj⟩ := h.cursorInv.header hs ho
  obtain ⟨hheader, -⟩ := hat.headerEntry
  obtain ⟨-, -, hhdr, -⟩ := hat.legal.bounds
  have hup := hat.upper
  have hi (w : Nat) (hw : w ≤ 4) : s.byteIndex.toNat + w < 512 := by omega
  have hrow : transition s b = headerRow s b op := by
    rw [transition, hs]
    dsimp only
    rw [ho]
  rw [hrow]
  cases op with
  | cver c => exact h.cver_columns hs (hi 1 (by decide)) hrun
  | pass => exact h.pass_columns hs (hi 1 (by decide)) hrun
  | acc16 d =>
    exact h.field_columns hs (hi 2 (by decide)) hj (by decide)
      (fun u => columns_writeField_advance u d (u.leAt u.byteIndex.toNat 2) 2) hrun
  | acc32 d =>
    exact h.field_columns hs (hi 4 (by decide)) hj (by decide)
      (fun u => columns_writeField_advance u d (u.leAt u.byteIndex.toNat 4) 4) hrun
  | skip => exact h.skip_columns hs (hi 2 (by decide)) hj hrun
  | acclen =>
    obtain ⟨hi8, hmax, h28⟩ := acclen_entry hat.legal _ hat.upper hat.entry
    exact h.acclen_columns hs hj hi8 hmax h28 hrun
  | sync _ | payf _ | payv | tsum | tcrc => cases hheader

/-- A payload byte's row, for a count `n` that is the payload length. -/
theorem Due.copyPayload_columns {n : State → Nat} (hs : s.stage = .payload)
    (hn : ∀ m, n { s with byteIn := none, buf := m } = s.payloadLen) (hrun : copyPayload n s = .next t) :
    t.columns = transition s b := by
  obtain ⟨-, hi, hj, hl⟩ := h.cursorInv.payload hs
  obtain ⟨-, hfit⟩ := payloadLen_bounds h.cursorInv.legal hl
  have hnext := index_succ_toNat hi (by omega)
  obtain ⟨b', -, -, rfl⟩ := copyPayload_eq_next hrun
  rw [hn, transition, hs, hnext, State.columns, State.cur]
  dsimp only
  rw [hnext, hj, h.ready, h.event]
  by_cases hend : s.byteIndex.toNat + 1 = s.cfg.hdrLen + s.payloadLen
  · rw [if_pos hend, if_neg hend.not_lt, hend]
    rfl
  · rw [if_neg hend, if_pos (by omega)]
    rfl

/-- The Payload rows. -/
theorem Due.payload_columns (hs : s.stage = .payload) (ho : s.selectOp = .ok op) (hrun : runByteOp op s = .next t) :
    t.columns = transition s b := by
  obtain rfl : payloadOp s.cfg.proto = op := Except.ok.inj ((selectOp_of_payload h.cursorInv.legal hs).symm.trans ho)
  cases hp : s.cfg.proto with
  | imu =>
    obtain ⟨-, -, -, -, -, -, -, -, -, hpay⟩ := h.cursorInv.legal.imu_fields hp
    rw [hp] at hrun
    exact h.copyPayload_columns hs (fun m => by simp [State.payloadLen, hp, hpay]) hrun
  | gps =>
    rw [hp] at hrun
    exact h.copyPayload_columns hs (fun m => by simp [State.payloadLen, hp]) hrun

/-- TSUM's row: the frame is reported exactly when the byte is the sum of the first 37. -/
theorem Due.tsum_columns (hs : s.stage = .trailer) (hp : s.cfg.proto = .imu) (hrun : execTsum s = .next t) :
    t.columns = transition s b := by
  obtain ⟨-, -, hhdr, -, -, -, -, -, -, hpay⟩ := h.cursorInv.legal.imu_fields hp
  obtain ⟨hi, -⟩ := h.cursorInv.trailer hs
  have hi : s.byteIndex.toNat = 37 := by simpa [State.payloadLen, hp, hhdr, hpay] using hi
  obtain ⟨hcur, -, hready, -, hevent, -⟩ := execTsum_result h.byteIn h.ready h.event hi rfl hrun
  rw [State.columns, hcur, hready, hevent, transition, hs, hp]
  dsimp only
  by_cases heq : b = sum8 (s.buf.slice 0 37)
  · simp [← heq, resync]
  · simp [heq, resync]

/-- TCRC's row: the fourth byte completes the trailer, and the comparison is with the three bytes stored and that one. -/
theorem Due.tcrc_columns (hs : s.stage = .trailer) (hp : s.cfg.proto = .gps) (hrun : execTcrc s = .next t) :
    t.columns = transition s b := by
  obtain ⟨-, -, -, htrl, -⟩ := h.cursorInv.legal.gps_fields hp
  obtain ⟨-, hj, -⟩ := h.cursorInv.trailer hs
  rw [htrl] at hj
  rw [accumulate_columns (w := 4) (fin := finishCrc) h.byteIn hj le_rfl hrun, transition, hs, hp, h.ready, h.event]
  dsimp only
  by_cases hmid : s.subIndex.toNat < 3
  · rw [if_pos (by omega), if_pos hmid]
  · have hlast : s.subIndex.toNat = 3 := by omega
    have hbytes := counted_slice s b
    rw [hlast] at hbytes
    have hend : (finishCrc (s.counted b)).columns = (resync, true, crcEvent
        (bswap32 (crc32 s.cfg ((s.counted b).buf.slice 0 s.byteIndex.toNat)) ==
          BitVec.ofNat 32 (le ((s.counted b).buf.slice s.byteIndex.toNat 4)))) := rfl
    rw [if_neg (by omega), if_neg hmid, hend, counted_slice_before, hbytes, crcEvent]
    simp only [beq_iff_eq]
    split <;> rfl

/-- The Trailer rows. -/
theorem Due.trailer_columns (hs : s.stage = .trailer) (ho : s.selectOp = .ok op) (hrun : runByteOp op s = .next t) :
    t.columns = transition s b := by
  obtain rfl : trailerOp s.cfg.proto = op := Except.ok.inj ((selectOp_of_trailer h.cursorInv.legal hs).symm.trans ho)
  cases hp : s.cfg.proto with
  | imu =>
    rw [hp] at hrun
    exact h.tsum_columns hs hp hrun
  | gps =>
    rw [hp] at hrun
    exact h.tcrc_columns hs hp hrun

/-- The selected byte operation takes the row of R105 that the state and the byte select. -/
theorem Due.columns_eq_transition (ho : s.selectOp = .ok op) (hrun : runByteOp op s = .next t) :
    t.columns = transition s b := by
  cases hs : s.stage with
  | sync => exact h.sync_columns hs ho hrun
  | header => exact h.header_columns hs ho hrun
  | payload => exact h.payload_columns hs ho hrun
  | trailer => exact h.trailer_columns hs ho hrun

end

/-! ### STEP -/

/-- STEP answers whatever the byte (R78) and takes its row of R105. -/
theorem execStep_columns {s : State} (h : CursorInv s) (hbusy : s.busy = false) (b : Byte) :
    ∃ t, exec (.step b) s = .next t ∧ t.columns = transition s b := by
  obtain ⟨t, ht⟩ := stepByte_answers h b
  obtain ⟨op, ho, hrun⟩ := stepByte_eq_next ht
  exact ⟨t, (execStep_of_not_busy hbusy b).trans ht, (due_latch h b).columns_eq_transition ho hrun⟩

/-- Settles O43: by cases on the stage and on the operation it selects, run on the state with the flags cleared. -/
theorem stepFollowsTheTransitionTable : Obligations.StepFollowsTheTransitionTable := by
  unfold Obligations.StepFollowsTheTransitionTable
  exact fun b s h hbusy => execStep_columns (inv_cursorInv h) hbusy b

/-- A Sync row depends on the parameters, `byteIndex` and the byte alone (R102). -/
theorem transition_congr_of_sync {s s' : State} (hc : s'.cfg = s.cfg) (hs : s.stage = .sync) (hs' : s'.stage = .sync)
    (hi : s'.byteIndex = s.byteIndex) (b : Byte) : transition s' b = transition s b := by
  rw [transition, transition, hs, hs', hc, hi]

theorem cur_eq_resync_iff {s : State} : s.cur = resync ↔ s.stage = .sync ∧ s.byteIndex = 0#9 ∧ s.subIndex = 0#3 := by
  simp only [State.cur, resync, Prod.mk.injEq, ← BitVec.toNat_inj]
  rfl

/-- Settles O39: both STEPs take the row of the Sync stage, which does not read the rest of the state. -/
theorem syncStageIgnoresHistory : Obligations.SyncStageIgnoresHistory := by
  unfold Obligations.SyncStageIgnoresHistory
  intro b s s' hc hcfg hbusy hbusy' hcur hcur'
  obtain ⟨hs, hi, hj⟩ := cur_eq_resync_iff.1 hcur
  obtain ⟨hs', hi', hj'⟩ := cur_eq_resync_iff.1 hcur'
  obtain ⟨hpos, -⟩ := hc.bounds
  have h : CursorInv s := cursorInv_of_sync hc hs (by rw [hi]; exact hpos) hj
  have h' : CursorInv s' := cursorInv_of_sync (hcfg ▸ hc) hs' (by rw [hi', hcfg]; exact hpos) hj'
  obtain ⟨t, ht, hrow⟩ := execStep_columns h hbusy b
  obtain ⟨t', ht', hrow'⟩ := execStep_columns h' hbusy' b
  refine ⟨t, t', ht, ht', columns_eq_iff.1 ?_⟩
  rw [hrow, ← transition_congr_of_sync hcfg hs hs' (hi'.trans hi.symm), ← hrow']
  rfl

/-- Settles O8: SYNC's row, with the frame every byte operation has. -/
theorem syncStoresOrResyncs : Obligations.SyncStoresOrResyncs := by
  unfold Obligations.SyncStoresOrResyncs
  intro c b s hc hb hs hi
  obtain ⟨-, hsh, hhdr, hcap, -⟩ := hc.bounds
  obtain ⟨t, ht⟩ := execSync_answers hb (by omega) c
  have hrun : runByteOp (.sync c) s = .next t := ht
  have hrow := execSync_columns hb (by omega) ht
  obtain ⟨hmatch, hmismatch⟩ := runByteOp_storesOnly hb hrun
  obtain ⟨hreport, hready⟩ := report_eq_iff.1 ((runByteOp_report hrun).resolve_right fun hdone => by simpa using hdone.completing)
  refine ⟨syncSeq_eq hc, fun k hk => (selectOp_eq_sync_iff hc hs hi).2 hk, t, ht, (runByteOp_tookByte hrun).byteTaken,
    fun d => runByteOp_readField (by simp) (by simp) (by simp) hrun, hreport, hready, fun heq => ?stored, fun hne => ?resynced⟩
  case stored =>
    rw [if_pos heq, hs, columns_eq_iff] at hrow
    obtain ⟨hcur, -, hevent⟩ := hrow
    exact ⟨hmatch heq, hevent, hcur⟩
  case resynced =>
    rw [if_neg hne, columns_eq_iff] at hrow
    obtain ⟨hcur, -, hevent⟩ := hrow
    exact ⟨hmismatch hne, hevent, hcur⟩

/-- Settles O19: the selected operation is the one the latched state selects. -/
theorem stepPerformsTheSelectedOperation : Obligations.StepPerformsTheSelectedOperation := by
  unfold Obligations.StepPerformsTheSelectedOperation
  intro b s op hbusy ho
  rw [execStep_of_not_busy hbusy, stepByte_of_selectOp ho, exec_byteOp]
  rfl

end Sys2Proof.Machine

/-! The Header operations (R110 to R119): the cursor, `ready` and `event` that each leaves, and the register it completes. -/

namespace Sys2Proof.Machine

/-! ### What every Header operation answers and keeps -/

/-- The stores of a Header entry are in range, whatever `subIndex` holds. -/
theorem header_inRange {s : State} (hc : s.cfg.Legal) (hi : s.byteIndex.toNat < s.cfg.hdrLen) :
    s.byteIndex.toNat + s.subIndex.toNat < s.cfg.cap := by
  have hj := s.subIndex.isLt
  cases hp : s.cfg.proto with
  | imu =>
    obtain ⟨hcap, -, hhdr, -⟩ := hc.imu_fields hp
    omega
  | gps =>
    obtain ⟨hcap, -, hhdr, -⟩ := hc.gps_fields hp
    omega

/-- What a Header operation on the byte `b` does apart from the cursor, `event` and the register it completes. -/
structure HeaderFrame (op : ByteOp) (b : Byte) (s t : State) : Prop where
  taken : ByteTaken s t
  report : SameReport s t
  ready : t.ready = s.ready
  stored : StoresOnly op b s t
  fields : ∀ d, writtenField op ≠ some d → t.readField d = s.readField d

/-- A Header operation below `HDRLEN` answers, whatever the byte (R78). -/
theorem headerOp_answers {op : ByteOp} {s : State} {b : Byte} (hop : isHeaderOp op = true) (hc : s.cfg.Legal)
    (hb : s.byteIn = some b) (hi : s.byteIndex.toNat < s.cfg.hdrLen) :
    ∃ t, runByteOp op s = .next t ∧ HeaderFrame op b s t := by
  obtain ⟨t, hrun⟩ := runByteOp_answers op hb (header_inRange hc hi)
  have hkept : t.report = s.report := (runByteOp_report hrun).resolve_right fun hdone => by
    obtain rfl | ⟨rfl, -⟩ := hdone.completing <;> cases hop
  obtain ⟨hreport, hready⟩ := report_eq_iff.1 hkept
  exact ⟨t, hrun, (runByteOp_tookByte hrun).byteTaken, hreport, hready, runByteOp_storesOnly hb hrun,
    fun d hd => runByteOp_readField_of_ne hd hrun⟩

/-- An operation of no register keeps all seven. -/
theorem HeaderFrame.sameFields {op : ByteOp} {b : Byte} {s t : State} (h : HeaderFrame op b s t)
    (hop : writtenField op = none) : SameFields s t :=
  fun d => h.fields d (by simp [hop])

/-- The GPS Header entry at offset `i` (R87). -/
theorem gps_selectOp_header {s : State} {i : Nat} {op : ByteOp} (hc : s.cfg.Legal) (hp : s.cfg.proto = .gps)
    (hs : s.stage = .header) (hop : entryOp Config.gps.entries i = some op) (hi : s.byteIndex.toNat = i) :
    s.selectOp = .ok op := by
  obtain ⟨-, -, -, -, -, hes, -⟩ := hc.gps_fields hp
  exact selectOp_of_entryOp hes hop (.inr hs) hi

/-- No IMU Header entry is PASS (R86). -/
theorem imu_selectOp_ne_pass {s : State} (hc : s.cfg.Legal) (hp : s.cfg.proto = .imu) (hs : s.stage = .header)
    (hi : s.byteIndex.toNat < s.cfg.hdrLen) : s.selectOp ≠ .ok .pass := by
  obtain ⟨-, -, hhdr, -, -, hes, -⟩ := hc.imu_fields hp
  have hnone : ∀ i < 7, entryOp Config.imu.entries i ≠ some .pass := by decide
  rw [Ne, selectOp_eq_ok_iff_entryOp (.inr hs), hes]
  exact hnone _ (hhdr ▸ hi)

/-! ### The columns of R105, whatever the flags -/

section
variable {b : Byte} {s t : State} (hb : s.byteIn = some b) (hs : s.stage = .header)

include hb hs in
/-- CVER (R111). -/
theorem execCver_columns {c : Byte} (hi : s.byteIndex.toNat + 1 < 512) (hrun : execCver c s = .next t) :
    t.columns = if b = c then (headerNext s (s.byteIndex.toNat + 1), s.ready, s.event)
      else (resync, s.ready, .headerFieldInvalid) := by
  obtain ⟨b', hb', hcase⟩ := execCver_eq_next hrun
  obtain rfl := Option.some.inj (hb'.symm.trans hb)
  obtain ⟨heq, -, rfl⟩ | ⟨hne, rfl⟩ := hcase
  · rw [if_pos heq]
    exact columns_advance hs hi
  · rw [if_neg hne]
    rfl

include hs in
/-- PASS (R112). -/
theorem execPass_columns (hi : s.byteIndex.toNat + 1 < 512) (hrun : execPass s = .next t) :
    t.columns = (headerNext s (s.byteIndex.toNat + 1), s.ready, s.event) := by
  obtain ⟨b', -, -, rfl⟩ := execPass_eq_next hrun
  exact columns_advance hs hi

/-- The cursor after a byte before the entry's last (R105). -/
theorem fieldRow_counted {w : Nat} (hj : s.subIndex.toNat + 1 < w) :
    (fieldRow s w).1 = (.header, s.byteIndex.toNat, s.subIndex.toNat + 1) := by
  rw [fieldRow, if_pos hj]

/-- The cursor after the entry's last byte (R105, R117). -/
theorem fieldRow_last {w : Nat} (hj : s.subIndex.toNat + 1 = w) :
    (fieldRow s w).1 = headerNext s (s.byteIndex.toNat + w) := by
  rw [fieldRow, if_neg hj.not_lt]

include hs in
/-- SKIP (R116). -/
theorem execSkip_columns (hi : s.byteIndex.toNat + 2 < 512) (hj : s.subIndex.toNat < 2)
    (hrun : execSkip s = .next t) : t.columns = ((fieldRow s 2).1, s.ready, s.event) := by
  obtain ⟨b', -, rfl⟩ := execSkip_eq_next hrun
  have hnext := subIndex_add_toNat (hj.trans (by decide))
  split
  · next hend =>
    rw [fieldRow_last (hnext.symm.trans hend)]
    exact columns_advance hs hi
  · next hmid =>
    rw [fieldRow_counted (by omega), ← hnext, ← hs]
    rfl

/-! ### The accumulate entries (R113 to R115, R118) -/

include hb in
/-- An accumulate entry stores and counts its byte, and with the last byte it ends the field. -/
theorem accumulate_eq_counted {w : Nat} {fin : State → State} (hj : s.subIndex.toNat < w) (hw : w ≤ 4)
    (hrun : accumulate w fin s = .next t) :
    t = if s.subIndex.toNat + 1 = w then fin (s.counted b) else s.counted b := by
  obtain ⟨b', hb', -, rfl⟩ := accumulate_eq_next hrun
  obtain rfl := Option.some.inj (hb'.symm.trans hb)
  rw [subIndex_add_toNat (hj.trans_le hw)]
  rfl

/-- At the last byte the field's value is that of the bytes stored before it, and of it (R51, R75). -/
theorem counted_leAt {w : Nat} (hj : s.subIndex.toNat + 1 = w) :
    (s.counted b).leAt (s.counted b).byteIndex.toNat w = le (s.buf.slice s.byteIndex.toNat s.subIndex.toNat ++ [b]) := by
  rw [← counted_slice, hj]
  rfl

/-- The end of ACC16 (`w` 2) and of ACC32 (`w` 4): the register is written and the entry finished. -/
def State.completeField (s : State) (d : Dest) (w : Nat) : State :=
  (s.writeField d (s.leAt s.byteIndex.toNat w)).advance w

theorem execAcc16_eq (d : Dest) : execAcc16 d s = accumulate 2 (·.completeField d 2) s := rfl

theorem execAcc32_eq (d : Dest) : execAcc32 d s = accumulate 4 (·.completeField d 4) s := rfl

/-- A register that the encoding admits in a `w`-byte entry is `w` bytes wide (R75). -/
theorem dest_width_of_fits {d : Dest} {w : Nat} (h : d.fits w = true) (hd : d ≠ .none) : d.width = some (8 * w) := by
  rw [Dest.fits] at h
  split at h
  · next hnone =>
    cases d <;> cases hnone
    exact absurd rfl hd
  · next k hk =>
    rw [hk, beq_iff_eq.1 h]

section
variable {d : Dest} {w : Nat} (hw : w ≤ 4) (hrun : accumulate w (·.completeField d w) s = .next t)
include hb hw hrun

include hs in
theorem accumulateField_columns (hi : s.byteIndex.toNat + w < 512) (hj : s.subIndex.toNat < w) :
    t.columns = ((fieldRow s w).1, s.ready, s.event) := by
  have hend : ((s.counted b).completeField d w).columns = (headerNext s (s.byteIndex.toNat + w), s.ready, s.event) :=
    (columns_writeField_advance _ _ _ _).trans (columns_advance hs hi)
  rw [accumulate_columns hb hj hw hrun, hend, hs]
  split
  · next hmid => rw [fieldRow_counted hmid]
  · rw [fieldRow_last (by omega)]

/-- The first bytes of a field leave its register. -/
theorem accumulateField_sameFields (hj : s.subIndex.toNat + 1 < w) : SameFields s t := by
  rw [accumulate_eq_counted hb (by omega) hw hrun, if_neg hj.ne]
  exact fun d' => rfl

/-- The last byte completes it. -/
theorem accumulateField_readField (hd : d.width = some (8 * w)) (hj : s.subIndex.toNat + 1 = w) :
    t.readField d = le (s.buf.slice s.byteIndex.toNat s.subIndex.toNat ++ [b]) := by
  rw [accumulate_eq_counted hb (by omega) hw hrun, if_pos hj, State.completeField, writeField_leAt_advance _ w hd,
    State.advance_buf, State.writeField_buf, ← counted_leAt hj]
  rfl

end

/-- ACCLEN's end writes the value it validates (R115). -/
theorem finishLength_messageLength (u : State) : (finishLength u).messageLength.toNat = u.leAt u.byteIndex.toNat 2 := by
  have hlt : u.leAt u.byteIndex.toNat 2 < 2 ^ 16 := by
    have hlt := le_lt (u.buf.slice u.byteIndex.toNat 2)
    rwa [Memory.length_slice] at hlt
  have hval := u.readField_writeField_same .messageLength _ 16 rfl hlt
  obtain h | h := finishLength_cases u <;> rw [h] <;> exact hval

include hs in
/-- ACCLEN's end (R115), `v` the value it assembles. -/
theorem finishLength_counted_columns {v : Nat} (hi : s.byteIndex.toNat + 2 < 512)
    (hv : (s.counted b).leAt (s.counted b).byteIndex.toNat 2 = v) :
    (finishLength (s.counted b)).columns = if v = 0 ∨ s.cfg.maxLen < v then (resync, s.ready, .headerFieldInvalid)
      else (headerNext s (s.byteIndex.toNat + 2), s.ready, s.event) := by
  have hend : ((s.counted b).advance 2).columns = (headerNext s (s.byteIndex.toNat + 2), s.ready, s.event) :=
    columns_advance hs hi
  rw [finishLength_eq, hv, show (s.counted b).cfg.maxLen = s.cfg.maxLen from rfl]
  split
  · rfl
  · exact (columns_writeField_advance _ _ _ _).trans hend

end

/-! ### The obligations -/

/-- Settles O9: CVER's columns, with the frame every Header operation has. -/
theorem cverStoresOrResyncs : Obligations.CverStoresOrResyncs := by
  unfold Obligations.CverStoresOrResyncs
  intro c b s hc hb hs hi
  obtain ⟨-, -, hhdr, -⟩ := hc.bounds
  obtain ⟨t, hrun, h⟩ := headerOp_answers (op := .cver c) rfl hc hb hi
  have hcol := execCver_columns hb hs (by omega) hrun
  obtain ⟨hmatch, hmismatch⟩ := h.stored
  refine ⟨t, hrun, h.taken, h.sameFields rfl, h.report, h.ready, fun heq => ?stored, fun hne => ?resynced⟩
  case stored =>
    rw [if_pos heq, columns_eq_iff] at hcol
    obtain ⟨hcur, -, hevent⟩ := hcol
    exact ⟨hmatch heq, hevent, hcur⟩
  case resynced =>
    rw [if_neg hne, columns_eq_iff] at hcol
    obtain ⟨hcur, -, hevent⟩ := hcol
    exact ⟨hmismatch hne, hevent, hcur⟩

/-- Settles O10: the entries of R86 and R87, and PASS's columns with its frame. -/
theorem passCopiesTheByte : Obligations.PassCopiesTheByte := by
  unfold Obligations.PassCopiesTheByte
  intro b s hc hb hs hi
  have hentry : ∀ i ∈ [6, 7, 12, 13], entryOp Config.gps.entries i = some .pass := by decide
  obtain ⟨-, -, hhdr, -⟩ := hc.bounds
  obtain ⟨t, hrun, h⟩ := headerOp_answers (op := .pass) rfl hc hb hi
  obtain ⟨hcur, -, hevent⟩ := columns_eq_iff.1 (execPass_columns hs (by omega) hrun)
  exact ⟨fun hp hmem => gps_selectOp_header hc hp hs (hentry _ hmem) rfl, fun hp => imu_selectOp_ne_pass hc hp hs hi,
    t, hrun, h.taken, h.sameFields rfl, h.report, h.ready, hevent, h.stored, hcur⟩

/-- Settles O11: the accumulate contract for a field of two bytes. -/
theorem acc16AssemblesTheField : Obligations.Acc16AssemblesTheField := by
  unfold Obligations.Acc16AssemblesTheField
  intro d b s hwf hc hb hs hi hj
  obtain ⟨-, -, hhdr, -⟩ := hc.bounds
  obtain ⟨t, hrun, h⟩ := headerOp_answers (op := .acc16 d) rfl hc hb (by omega)
  have hacc := (execAcc16_eq d).symm.trans hrun
  obtain ⟨hcur, -, hevent⟩ := columns_eq_iff.1 (accumulateField_columns hb hs (by decide) hacc (by omega) hj)
  refine ⟨fun hp => ?entries, t, hrun, h.taken, h.report, h.ready, hevent, h.stored,
    fun hfirst => ?first, fun hlast => ⟨fun hd => ?register, fun d' hne => ?others, ?cursor⟩⟩
  case entries =>
    exact ⟨gps_selectOp_header hc hp hs (by decide), gps_selectOp_header hc hp hs (by decide),
      gps_selectOp_header hc hp hs (by decide), gps_selectOp_header hc hp hs (by decide)⟩
  case first =>
    refine ⟨accumulateField_sameFields hb (by decide) hacc (by omega), ?_⟩
    rw [hcur, fieldRow_counted (by omega), hfirst]
  case register =>
    rw [accumulateField_readField hb (by decide) hacc (dest_width_of_fits hwf hd) (by omega), hlast]
    rfl
  case others => exact h.fields d' fun heq => hne (Option.some.inj heq).symm
  case cursor => exact hcur.trans (fieldRow_last (by omega))

/-- Settles O12: the accumulate contract for a field of four bytes. -/
theorem acc32AssemblesTheField : Obligations.Acc32AssemblesTheField := by
  unfold Obligations.Acc32AssemblesTheField
  intro d b s hwf hc hb hs hi hj
  obtain ⟨-, -, hhdr, -⟩ := hc.bounds
  obtain ⟨t, hrun, h⟩ := headerOp_answers (op := .acc32 d) rfl hc hb (by omega)
  have hacc := (execAcc32_eq d).symm.trans hrun
  obtain ⟨hcur, -, hevent⟩ := columns_eq_iff.1 (accumulateField_columns hb hs le_rfl hacc (by omega) hj)
  refine ⟨fun hp => ?entries, t, hrun, h.taken, h.report, h.ready, hevent, h.stored,
    fun hcount => ?counted, fun hlast => ⟨fun hd => ?register, fun d' hne => ?others, ?cursor⟩⟩
  case entries => exact ⟨gps_selectOp_header hc hp hs (by decide), gps_selectOp_header hc hp hs (by decide)⟩
  case counted =>
    exact ⟨accumulateField_sameFields hb le_rfl hacc (by omega), hcur.trans (fieldRow_counted (by omega))⟩
  case register =>
    rw [accumulateField_readField hb le_rfl hacc (dest_width_of_fits hwf hd) (by omega), hlast]
    simp only [Memory.slice_succ, Memory.slice_zero, List.cons_append, List.nil_append, le, Nat.add_assoc, Nat.reduceAdd]
    omega
  case others => exact h.fields d' fun heq => hne (Option.some.inj heq).symm
  case cursor => exact hcur.trans (fieldRow_last (by omega))

/-- Settles O13: the first byte is counted, the second is validated by `finishLength`. -/
theorem acclenAssemblesAndValidates : Obligations.AcclenAssemblesAndValidates := by
  unfold Obligations.AcclenAssemblesAndValidates
  intro b s hc hp hb hs hi hj
  obtain ⟨-, -, hhdr, -, hmax, -⟩ := hc.gps_fields hp
  obtain ⟨t, hrun, h⟩ := headerOp_answers (op := .acclen) rfl hc hb (by omega)
  have hacc : accumulate 2 finishLength s = .next t := hrun
  refine ⟨t, hrun, h.taken, h.report, h.ready, hi ▸ h.stored, fun d hd => h.fields d (by simpa [writtenField] using hd.symm),
    fun hfirst => ?first, fun hlast => ?last⟩
  case first =>
    have hcol := accumulate_columns hb hj (by decide) hacc
    rw [if_pos (by omega), hs, hi, hfirst, columns_eq_iff] at hcol
    obtain ⟨hcur, -, hevent⟩ := hcol
    refine ⟨?_, hevent, hcur⟩
    rw [accumulate_eq_counted hb hj (by decide) hacc, if_neg (by omega)]
    rfl
  case last =>
    have hend := accumulate_eq_counted hb hj (by decide) hacc
    rw [if_pos (by omega)] at hend
    subst hend
    have hvalue : (s.counted b).leAt (s.counted b).byteIndex.toNat 2 = (s.buf.read 8).toNat + 256 * b.toNat := by
      rw [counted_leAt (by omega), hi, hlast]
      rfl
    have hcol := finishLength_counted_columns hs (by omega) hvalue
    rw [hmax] at hcol
    rw [finishLength_messageLength, hvalue]
    refine ⟨rfl, fun hin => ?admitted, fun hout => ?rejected⟩
    case admitted =>
      rw [if_neg (by omega), headerNext, if_neg (by omega), hi, columns_eq_iff] at hcol
      obtain ⟨hcur, -, hevent⟩ := hcol
      exact ⟨hevent, hcur⟩
    case rejected =>
      rw [if_pos hout, columns_eq_iff] at hcol
      obtain ⟨hcur, -, hevent⟩ := hcol
      exact ⟨hevent, hcur⟩

/-- Settles O14: SKIP's columns, with the frame every Header operation has. -/
theorem skipStoresNothing : Obligations.SkipStoresNothing := by
  unfold Obligations.SkipStoresNothing
  intro b s hc hb hs hi hj
  obtain ⟨-, -, hhdr, -⟩ := hc.bounds
  obtain ⟨t, hrun, h⟩ := headerOp_answers (op := .skip) rfl hc hb (by omega)
  obtain ⟨hcur, -, hevent⟩ := columns_eq_iff.1 (execSkip_columns hs (by omega) hj hrun)
  refine ⟨t, hrun, h.taken, h.sameFields rfl, h.report, h.ready, hevent, h.stored,
    fun hfirst => ?first, fun hlast => hcur.trans (fieldRow_last (by omega))⟩
  case first => rw [hcur, fieldRow_counted (by omega), hfirst]

end Sys2Proof.Machine

/-! The Payload operations (R130 to R132): what a copied byte changes, and when the payload ends. -/

namespace Sys2Proof.Machine

/-- The cursor after a payload byte: the Trailer stage begins at the `k`-th (R130, R131). -/
theorem copyPayload_cur {n : State → Nat} {k : Nat} {s t : State} (hs : s.stage = .payload)
    (hlo : s.cfg.hdrLen ≤ s.byteIndex.toNat) (hi : s.byteIndex.toNat < 500)
    (hn : ∀ m, n { s with byteIn := none, buf := m } = k) (hrun : copyPayload n s = .next t) :
    t.cur = (if s.byteIndex.toNat + 1 - s.cfg.hdrLen = k then .trailer else .payload,
      s.byteIndex.toNat + 1, s.subIndex.toNat) := by
  have hend : s.byteIndex.toNat + 1 = s.cfg.hdrLen + k ↔ s.byteIndex.toNat + 1 - s.cfg.hdrLen = k := by omega
  obtain ⟨b, -, -, rfl⟩ := copyPayload_eq_next hrun
  simp only [State.cur, hn, index_succ_toNat hi le_rfl, hend]
  rw [hs]

/-- A payload byte is stored and counted; nothing else changes (R130, R131). -/
theorem copyPayload_copies {n : State → Nat} {k : Nat} {s : State} {b : Byte} (hc : s.cfg.Legal) (hb : s.byteIn = some b)
    (hs : s.stage = .payload) (hlo : s.cfg.hdrLen ≤ s.byteIndex.toNat) (hi : s.byteIndex.toNat < s.cfg.cap)
    (hn : ∀ m, n { s with byteIn := none, buf := m } = k) :
    ∃ t, copyPayload n s = .next t ∧ ByteTaken s t ∧ SameFields s t ∧ SameReport s t ∧
      t.ready = s.ready ∧ t.event = s.event ∧ StoredAt s.byteIndex.toNat b s t ∧
      t.cur = (if s.byteIndex.toNat + 1 - s.cfg.hdrLen = k then .trailer else .payload,
        s.byteIndex.toNat + 1, s.subIndex.toNat) := by
  obtain ⟨-, -, -, -, hcap⟩ := hc.bounds
  obtain ⟨t, hrun⟩ := copyPayload_answers (n := n) hb hi
  have hstored := copyPayload_storedAt hb hrun
  have hcur := copyPayload_cur hs hlo (hi.trans_le hcap) hn hrun
  obtain ⟨_, -, -, rfl⟩ := copyPayload_eq_next hrun
  refine ⟨_, hrun, ?taken, fun _ => rfl, ?report, rfl, rfl, hstored, hcur⟩
  case taken => exact ⟨rfl, ⟨rfl, rfl, rfl⟩, ⟨rfl, rfl, rfl, rfl⟩⟩
  case report => exact ⟨rfl, rfl, rfl, rfl⟩

/-- Settles O15: R86's payload entry, and the copied byte for the entry's count. -/
theorem payfCopiesUntilItsCount : Obligations.PayfCopiesUntilItsCount := by
  unfold Obligations.PayfCopiesUntilItsCount
  intro n b s hc hb hs hlo hi
  refine ⟨fun hp => ?entry, copyPayload_copies hc hb hs hlo hi fun _ => rfl⟩
  case entry =>
    obtain ⟨-, -, -, -, hpayload, -⟩ := imuDescriptorProgram s hc hp
    exact hpayload hs

/-- Settles O16: R87's payload entry, and the copied byte for the count `messageLength`. -/
theorem payvCopiesUntilMessageLength : Obligations.PayvCopiesUntilMessageLength := by
  unfold Obligations.PayvCopiesUntilMessageLength
  intro b s hc hb hs hlo hi
  refine ⟨fun hp => ?entry, copyPayload_copies hc hb hs hlo hi fun _ => rfl⟩
  case entry =>
    obtain ⟨-, -, -, -, hpayload, -⟩ := gpsDescriptorProgram s hc hp
    exact hpayload hs

end Sys2Proof.Machine

/-! The checksum engine (R140, R145): SUM8 as a sum of bytes, and BSWAP32 as the reversal of a word's bytes. -/

namespace Sys2Proof.Machine

/-! ### SUM8 -/

/-- SUM8 is the sum in the 8-bit words, whose laws it therefore has. -/
theorem sum8_eq_sum (bs : List Byte) : sum8 bs = bs.sum := by
  induction bs with
  | nil => rfl
  | cons b bs ih =>
    rw [List.sum_cons, ← ih, sum8, List.map_cons, List.sum_cons, BitVec.ofNat_add, BitVec.ofNat_toNat, BitVec.setWidth_eq]
    rfl

theorem sum8_append (bs cs : List Byte) : sum8 (bs ++ cs) = sum8 bs + sum8 cs := by
  simp only [sum8_eq_sum, List.sum_append]

theorem toNat_sum8 (bs : List Byte) : (sum8 bs).toNat = (bs.map BitVec.toNat).sum % 256 := BitVec.toNat_ofNat _ _

/-- Settles O29: the laws of the sum in the 8-bit words. -/
theorem sumIsAWrappingAccumulator : Obligations.SumIsAWrappingAccumulator := by
  unfold Obligations.SumIsAWrappingAccumulator
  have hhead : sum8 imuHead = 0x35#8 := by decide
  refine ⟨rfl, fun bs b => ?snoc, fun bs cs hperm => ?perm, toNat_sum8, fun p => ?head⟩
  case snoc => rw [sum8_append, sum8_eq_sum [b], List.sum_singleton]
  case perm => rw [sum8_eq_sum, sum8_eq_sum, hperm.sum_eq]
  case head => rw [sum8_append, hhead]

/-- Settles O30: the sums differ by the difference of the two bytes. -/
theorem singleByteChangeChangesTheSum : Obligations.SingleByteChangeChangesTheSum := by
  unfold Obligations.SingleByteChangeChangesTheSum
  intro bs k b hk hne heq
  rw [sum8_eq_sum, sum8_eq_sum, List.sum_set', dif_pos hk, add_eq_left, neg_add_eq_zero] at heq
  exact hne (by rw [List.getElem?_eq_getElem hk, heq])

/-! ### BSWAP32 -/

theorem wire32_bswap32_eq_reverse (v : Word) : wire32 (bswap32 v) = (wire32 v).reverse := wire32_bswap32 v

theorem wire32_injective : Function.Injective wire32 := fun v w h =>
  BitVec.eq_of_toNat_eq (by rw [← le_wire32, h, le_wire32])

/-- The byte at position `k` on the wire is byte `k` of the value (R51, R52). -/
theorem wire32_div_mod {v : Word} {k : Nat} {b : Byte} (h : (wire32 v)[k]? = some b) :
    v.toNat / 256 ^ k % 256 = b.toNat := by
  rw [← le_wire32, le_div_mod h]

/-- Settles O32: BSWAP32 reverses the bytes on the wire, which determine the word. -/
theorem byteSwapReversesTheBytes : Obligations.ByteSwapReversesTheBytes := by
  unfold Obligations.ByteSwapReversesTheBytes
  intro v
  refine ⟨wire32_injective ?involutive, fun k hk => ?bytes⟩
  case involutive => rw [wire32_bswap32_eq_reverse, wire32_bswap32_eq_reverse, List.reverse_reverse]
  case bytes =>
    obtain ⟨b, hb⟩ : ∃ b, (wire32 v)[3 - k]? = some b := ⟨_, List.getElem?_eq_getElem (show 3 - k < 4 by omega)⟩
    have hswap : (wire32 (bswap32 v))[k]? = some b := by
      rw [wire32_bswap32_eq_reverse, List.getElem?_reverse (show k < 4 from hk), ← hb]
      rfl
    rw [wire32_div_mod hswap, wire32_div_mod hb]

/-- Settles O33: the comparison of R152 for a trailer of four bytes. -/
theorem crcTrailerMostSignificantFirst : Obligations.CrcTrailerMostSignificantFirst := by
  unfold Obligations.CrcTrailerMostSignificantFirst
  exact fun c b0 b1 b2 b3 => bswap32_eq_le_iff rfl

end Sys2Proof.Machine

/-! The Trailer operations (R150 to R155): the check values, and what they report. -/

namespace Sys2Proof.Machine

/-- A byte operation that completes no field takes its byte, keeps every field register and stores what R53 says. -/
theorem runByteOp_frame_of_no_field {op : ByteOp} {s t : State} {b : Byte} (hop : writtenField op = none)
    (hb : s.byteIn = some b) (hrun : runByteOp op s = .next t) : ByteTaken s t ∧ SameFields s t ∧ StoresOnly op b s t :=
  ⟨(runByteOp_tookByte hrun).byteTaken, fun _ => runByteOp_readField_of_ne (by simp [hop]) hrun, runByteOp_storesOnly hb hrun⟩

/-! ### TSUM -/

/-- The bytes from offset 0, read one by one (R13). -/
theorem Memory.slice_zero_eq_map_range (m : Memory) (n : Nat) : m.slice 0 n = (List.range n).map m.read := by
  induction n with
  | zero => rfl
  | succ n ih => rw [Memory.slice_snoc, ih, List.range_succ, List.map_append, Nat.zero_add, List.map_singleton]

/-- TSUM answers with `byteIndex` in range, whatever `subIndex` holds. -/
theorem execTsum_answers {s : State} {b : Byte} (hb : s.byteIn = some b) (hi : s.byteIndex.toNat < s.cfg.cap) :
    ∃ t, execTsum s = .next t := by
  rw [execTsum, takeInput_some hb]
  refine storeByte_answers hi fun u => ?_
  dsimp only
  split <;> exact ⟨_, rfl⟩

section
variable {b : Byte} {s t : State} (hb : s.byteIn = some b) (hrun : execTsum s = .next t)
include hb hrun

/-- TSUM resyncs and leaves the received and the computed check value, whatever the comparison says (R150). -/
theorem execTsum_checks : t.cur = resync ∧ t.rxCheck = b.setWidth 32 ∧
    t.calcCheck = (sum8 (s.buf.slice 0 s.byteIndex.toNat)).setWidth 32 := by
  obtain ⟨c, hc, -, ⟨hsum, rfl⟩ | ⟨-, rfl⟩⟩ := execTsum_eq_next hrun <;> obtain rfl := Option.some.inj (hc.symm.trans hb)
  · exact ⟨rfl, rfl, by rw [hsum]⟩
  · exact ⟨rfl, rfl, rfl⟩

theorem execTsum_checks_eq_iff : t.calcCheck = t.rxCheck ↔ sum8 (s.buf.slice 0 s.byteIndex.toNat) = b := by
  obtain ⟨-, hrx, hcalc⟩ := execTsum_checks hb hrun
  rw [hrx, hcalc, ← BitVec.toNat_inj, ← BitVec.toNat_inj, BitVec.toNat_setWidth_of_le (by decide),
    BitVec.toNat_setWidth_of_le (by decide)]

/-- An equal sum reports the frame. -/
theorem execTsum_accepts (heq : sum8 (s.buf.slice 0 s.byteIndex.toNat) = b) :
    t.checkOk = true ∧ t.ready = true ∧ t.length = s.byteIndex + 1#9 ∧ t.event = s.event := by
  obtain ⟨c, hc, -, ⟨-, rfl⟩ | ⟨hne, -⟩⟩ := execTsum_eq_next hrun
  · exact ⟨rfl, rfl, rfl, rfl⟩
  · exact absurd (heq.trans (Option.some.inj (hb.symm.trans hc))) hne

/-- Any other rejects it. -/
theorem execTsum_rejects (hne : sum8 (s.buf.slice 0 s.byteIndex.toNat) ≠ b) :
    t.checkOk = false ∧ t.ready = s.ready ∧ t.length = s.length ∧ t.event = .checksumMismatch := by
  obtain ⟨c, hc, -, ⟨heq, -⟩ | ⟨-, rfl⟩⟩ := execTsum_eq_next hrun
  · exact absurd (heq.trans (Option.some.inj (hc.symm.trans hb))) hne
  · exact ⟨rfl, rfl, rfl, rfl⟩

end

/-- Settles O17: TSUM's two outcomes by the comparison, with the frame of an operation that completes no field. -/
theorem tsumReportsOnlyAnEqualSum : Obligations.TsumReportsOnlyAnEqualSum := by
  unfold Obligations.TsumReportsOnlyAnEqualSum
  intro b s hc hp hb _ hi
  obtain ⟨hcap, -⟩ := hc.imu_fields hp
  obtain ⟨t, hrun⟩ := execTsum_answers hb (by omega)
  obtain ⟨htaken, hfields, hstored⟩ := runByteOp_frame_of_no_field (op := .tsum) rfl hb hrun
  obtain ⟨hcur, hrx, hcalc⟩ := execTsum_checks hb hrun
  have hiff := execTsum_checks_eq_iff hb hrun
  refine ⟨t, hrun, htaken, hfields, hi ▸ hstored, hcur, ?received, ?computed, fun heq => ?accepted,
    fun hne => execTsum_rejects hb hrun (mt hiff.2 hne)⟩
  case received => rw [hrx, BitVec.toNat_setWidth_of_le (by decide)]
  case computed =>
    rw [hcalc, hi, BitVec.toNat_setWidth_of_le (by decide), toNat_sum8, Memory.slice_zero_eq_map_range, List.map_map]
    rfl
  case accepted =>
    obtain ⟨hok, hready, hlength, hevent⟩ := execTsum_accepts hb hrun (hiff.1 heq)
    refine ⟨hok, hready, ?_, hevent⟩
    rw [hlength, index_succ_toNat (show s.byteIndex.toNat < 38 by omega) (by decide), hi]

/-! ### TCRC -/

/-- TCRC is an accumulate entry of four bytes whose end is the comparison (R118, R152). -/
theorem execTcrc_eq (s : State) : execTcrc s = accumulate 4 finishCrc s := rfl

/-- The received value is below `2 ^ 32`, so nothing of the merge is lost (R51). -/
theorem finishCrc_rxCheck_toNat (u : State) : (finishCrc u).rxCheck.toNat = u.leAt u.byteIndex.toNat 4 := by
  have hlt : u.leAt u.byteIndex.toNat 4 < 2 ^ 32 := by
    have hlt := le_lt (u.buf.slice u.byteIndex.toNat 4)
    rwa [Memory.length_slice] at hlt
  exact (BitVec.toNat_ofNat _ _).trans (Nat.mod_eq_of_lt hlt)

/-- `check_ok` and `event` are the comparison's (R152, R153). -/
theorem finishCrc_verdict (u : State) :
    (finishCrc u).checkOk = (bswap32 (finishCrc u).calcCheck == (finishCrc u).rxCheck) ∧
      (finishCrc u).event = crcEvent (finishCrc u).checkOk := ⟨rfl, rfl⟩

/-- Settles O18: TCRC counts its first three bytes, and the fourth ends with `finishCrc` on the stored trailer. -/
theorem tcrcReportsWithOrWithoutMatch : Obligations.TcrcReportsWithOrWithoutMatch := by
  unfold Obligations.TcrcReportsWithOrWithoutMatch
  intro b s hc hp hb hs hi hlen hj
  obtain ⟨hcap, -⟩ := hc.gps_fields hp
  obtain ⟨t, hrun⟩ := runByteOp_answers .tcrc hb (by omega)
  obtain ⟨htaken, hfields, hstored⟩ := runByteOp_frame_of_no_field rfl hb hrun
  have hacc := (execTcrc_eq s).symm.trans hrun
  have heq := accumulate_eq_counted hb hj le_rfl hacc
  refine ⟨t, hrun, htaken, hfields, hstored, fun hcount => ?counted, fun hlast => ?completed⟩
  case counted =>
    have hcol := accumulate_columns hb hj le_rfl hacc
    rw [if_pos (by omega), hs, columns_eq_iff] at hcol
    obtain ⟨hcur, hready, hevent⟩ := hcol
    rw [if_neg (by omega)] at heq
    have hreport : SameReport s t := by
      rw [heq]
      exact ⟨rfl, rfl, rfl, rfl⟩
    exact ⟨hreport, hready, hevent, hcur⟩
  case completed =>
    rw [if_pos (by omega)] at heq
    subst heq
    obtain ⟨hok, hevent⟩ := finishCrc_verdict (s.counted b)
    refine ⟨rfl, rfl, ?length, ?computed, ?received, fun hmatch => ?matched, fun hmismatch => ?mismatched⟩
    case length => exact (index_add_toNat (i := s.byteIndex) 4 (by omega)).trans (by omega)
    case computed =>
      rw [← hi, ← counted_slice_before s b]
      rfl
    case received =>
      rw [finishCrc_rxCheck_toNat, counted_leAt (by omega), hlast]
      simp only [Memory.slice_succ, Memory.slice_zero, List.cons_append, List.nil_append, le, Nat.add_assoc, Nat.reduceAdd]
      omega
    case matched =>
      rw [hevent, hok, beq_iff_eq.2 hmatch]
      exact ⟨rfl, rfl⟩
    case mismatched =>
      rw [hevent, hok, beq_eq_false_iff_ne.2 hmismatch]
      exact ⟨rfl, rfl⟩

end Sys2Proof.Machine

/-! RESET and the read outcomes (R170, R174, R177, R178). -/

namespace Sys2Proof.Machine

/-- Settles O20: `resetRegisters` writes every register of R39's table, and the empty buffer reads `BUF_RESET` everywhere. -/
theorem resetRestoresEveryRegister : Obligations.ResetRestoresEveryRegister := by
  unfold Obligations.ResetRestoresEveryRegister
  intro s hs
  obtain ⟨hn, hb⟩ := busy_eq_false_iff.1 hs
  have hrun : exec .reset s = .next s.resetRegisters := if_neg (by simp [hs])
  exact ⟨s.resetRegisters, hrun, rfl, fun _ => rfl, rfl, rfl, readField_resetRegisters s, rfl, rfl, rfl, rfl, rfl, rfl, rfl,
    hn, hb, rfl, rfl, rfl, rfl⟩

/-! ### The read attempt, answer by answer -/

/-- Within the budget, counting an attempt does not wrap. -/
theorem attempts_succ_toNat {k n : Half} (h : k.toNat < n.toNat) : (k + 1#16).toNat = k.toNat + 1 := by
  rw [BitVec.toNat_add, BitVec.toNat_ofNat]
  omega

theorem testBudget_of_lt {s : State} {n : Half} (h : s.attempts.toNat < n.toNat) : s.testBudget n = s := if_pos h

theorem testBudget_of_le {s : State} {n : Half} (h : n.toNat ≤ s.attempts.toNat) : s.testBudget n = s.endAcquire .noFrame :=
  if_neg (Nat.not_lt.2 h)

/-- The budget test after one attempt more: the last one ends the call (R174). -/
theorem testBudget_counted {s : State} {k n : Half} (hk : k.toNat < n.toNat) (hs : s.attempts = k + 1#16) :
    s.testBudget n = if k.toNat + 1 = n.toNat then s.endAcquire .noFrame else s := by
  have hcount : s.attempts.toNat = k.toNat + 1 := hs ▸ attempts_succ_toNat hk
  split
  · exact testBudget_of_le (by omega)
  · exact testBudget_of_lt (by omega)

theorem readAttempt_error {s : State} {n : Half} (hb : s.byteIn = none) (hn : s.budget = some n) :
    readAttempt .error s = .next ({ s with attempts := s.attempts + 1#16 }.endAcquire .transportError) := by
  simp [readAttempt, hb, hn]

theorem readAttempt_timeout {s : State} {n : Half} (hb : s.byteIn = none) (hn : s.budget = some n) :
    readAttempt .timeout s =
      .next (if s.cfg.timeoutFatal then { s with attempts := s.attempts + 1#16 }.endAcquire .transportError
        else { s with attempts := s.attempts + 1#16 }.testBudget n) := by
  simp [readAttempt, hb, hn]

theorem readAttempt_byte {s u : State} {n : Half} {b : Byte} (hb : s.byteIn = none) (hn : s.budget = some n)
    (hu : stepByte b { s with attempts := s.attempts + 1#16 } = .next u) :
    readAttempt (.byte b) s = .next (if u.ready then u.endAcquire .frame else u.testBudget n) := by
  rw [hn] at hu
  rw [readAttempt, if_neg (by simp [hb]), hn]
  dsimp only
  rw [hu, andThen_next]

/-- Settles O25: the timeout's branch of the attempt, and the budget test after it. -/
theorem readTimeoutOnlyCounts : Obligations.ReadTimeoutOnlyCounts := by
  unfold Obligations.ReadTimeoutOnlyCounts
  intro n s hb hn hlt
  refine (readAttempt_timeout hb hn).trans ?_
  rw [testBudget_counted hlt rfl]
  rfl

/-- Settles O26: the error's branch of the attempt. -/
theorem readErrorEndsTheCall : Obligations.ReadErrorEndsTheCall := by
  unfold Obligations.ReadErrorEndsTheCall
  exact fun n s hb hn => readAttempt_error hb hn

/-! ### ACQUIRE's start -/

/-- With nothing in progress ACQUIRE clears what R179 names and runs its loop, the budget tested first (R174). -/
theorem execAcquire_of_not_busy {s : State} (h : s.busy = false) (n : Half) :
    exec (.acquire n) s = acquireLoop s.source ((s.beginAcquire n).testBudget n) := if_neg (by simp [h])

/-- With no answer left the loop waits in `ReadByte()`. -/
theorem acquireLoop_of_no_answer {s : State} (h : s.source = []) : acquireLoop s.source s = .next s := by
  rw [h, acquireLoop, ← h]

/-- Once the call has ended no answer is taken. -/
theorem acquireLoop_of_ended {s : State} (h : s.budget = none) : acquireLoop s.source s = .next s := by
  cases hs : s.source with
  | nil => rw [acquireLoop, ← hs]
  | cons w ws => rw [acquireLoop, if_pos (by simp [h]), ← hs]

/-- Settles O22: the budget test ends a call of no attempts at once; with attempts left the loop waits for an answer. -/
theorem acquireStarts : Obligations.AcquireStarts := by
  unfold Obligations.AcquireStarts
  intro s hs
  obtain ⟨hn, -⟩ := busy_eq_false_iff.1 hs
  refine ⟨?ended, fun n hpos hsrc => ?waiting⟩
  case ended =>
    rw [execAcquire_of_not_busy hs, testBudget_of_le (by simp)]
    refine (acquireLoop_of_ended (s := (s.beginAcquire 0#16).endAcquire .noFrame) rfl).trans ?_
    rw [State.endAcquire, ← hn]
    rfl
  case waiting =>
    rw [execAcquire_of_not_busy hs, testBudget_of_lt (by simpa using hpos)]
    exact acquireLoop_of_no_answer (s := s.beginAcquire n) hsrc

end Sys2Proof.Machine

/-! A byte operation does not see the ACQUIRE it runs in, so an attempt's byte is one STEP (R175, R181). -/

namespace Sys2Proof.Machine

/-! ### The acquisition registers are apart from the decoder -/

/-- The decoder state within an ACQUIRE of budget `n` after `k` attempts, with the answers `ws` left. -/
def State.during (s : State) (k n : Half) (ws : List RdWord) : State :=
  { s with attempts := k, budget := some n, source := ws }

@[simp] theorem State.during_ready (s : State) (k n : Half) (ws : List RdWord) : (s.during k n ws).ready = s.ready := rfl
@[simp] theorem State.during_attempts (s : State) (k n : Half) (ws : List RdWord) : (s.during k n ws).attempts = k := rfl

section
variable (k n : Half) (ws : List RdWord)

/-- An outcome, its next state put within an ACQUIRE. -/
def inAcquire (o : Result) : Result := andThen o fun t => .next (t.during k n ws)

theorem takeInput_during {f : Byte → State → Result} (hf : ∀ b u, f b (u.during k n ws) = inAcquire k n ws (f b u))
    (s : State) : takeInput (s.during k n ws) f = inAcquire k n ws (takeInput s f) := by
  cases hb : s.byteIn with
  | none =>
    rw [takeInput_none hb, takeInput_none (s := s.during k n ws) hb]
    rfl
  | some b =>
    rw [takeInput_some hb, takeInput_some (s := s.during k n ws) hb]
    exact hf b { s with byteIn := none }

theorem storeByte_during {f : State → Result} (hf : ∀ u, f (u.during k n ws) = inAcquire k n ws (f u)) (a : Nat) (b : Byte)
    (s : State) : storeByte a b (s.during k n ws) f = inAcquire k n ws (storeByte a b s f) := by
  unfold storeByte
  by_cases h : a < s.cfg.cap
  · rw [if_pos h]
    exact (if_pos h).trans (hf { s with buf := s.buf.write a b })
  · rw [if_neg h]
    exact if_neg h

theorem writeField_during (s : State) (d : Dest) (v : Nat) :
    (s.during k n ws).writeField d v = (s.writeField d v).during k n ws := by
  cases d <;> rfl

theorem completeField_during (d : Dest) (w : Nat) (s : State) :
    (s.during k n ws).completeField d w = (s.completeField d w).during k n ws :=
  congrArg (State.advance · w) (writeField_during k n ws s d _)

theorem ite_during (p : Prop) [Decidable p] (s t : State) :
    (if p then s.during k n ws else t.during k n ws) = (if p then s else t).during k n ws :=
  (apply_ite (State.during · k n ws) p s t).symm

theorem finishLength_during (s : State) : finishLength (s.during k n ws) = (finishLength s).during k n ws := by
  let t := s.writeField .messageLength (s.leAt s.byteIndex.toNat 2)
  exact ite_during k n ws _ (t.raise .headerFieldInvalid) (t.advance 2)

/-- An entry's end at its last byte, counted in `subIndex`. -/
theorem finishAt_during {w : Nat} {fin : State → State} (hfin : ∀ u, fin (u.during k n ws) = (fin u).during k n ws)
    (s : State) :
    (if (s.during k n ws).subIndex.toNat = w then fin (s.during k n ws) else s.during k n ws) =
      (if s.subIndex.toNat = w then fin s else s).during k n ws := by
  rw [hfin]
  exact ite_during k n ws _ _ _

theorem accumulate_during {w : Nat} {fin : State → State} (hfin : ∀ u, fin (u.during k n ws) = (fin u).during k n ws)
    (s : State) : accumulate w fin (s.during k n ws) = inAcquire k n ws (accumulate w fin s) := by
  refine takeInput_during k n ws (fun b t => storeByte_during k n ws (fun u => ?_) _ b t) s
  exact congrArg Host.Outcome.next (finishAt_during k n ws hfin { u with subIndex := u.subIndex + 1#3 })

theorem copyPayload_during {c : State → Nat} (hc : ∀ u, c (u.during k n ws) = c u) (s : State) :
    copyPayload c (s.during k n ws) = inAcquire k n ws (copyPayload c s) := by
  refine takeInput_during k n ws (fun b t => storeByte_during k n ws (fun u => ?_) _ b t) s
  dsimp only
  rw [hc]
  rfl

/-- No byte operation reads or writes what an ACQUIRE keeps for itself. -/
theorem runByteOp_during (op : ByteOp) (s : State) : runByteOp op (s.during k n ws) = inAcquire k n ws (runByteOp op s) := by
  cases op with
  | sync c | cver c =>
    simp only [runByteOp, execSync, execCver]
    refine takeInput_during k n ws (fun b t => ?_) s
    split
    · exact storeByte_during k n ws (fun _ => rfl) _ b t
    · rfl
  | pass =>
    simp only [runByteOp, execPass]
    exact takeInput_during k n ws (fun b t => storeByte_during k n ws (fun _ => rfl) _ b t) s
  | acc16 d => exact accumulate_during k n ws (fin := (·.completeField d 2)) (completeField_during k n ws d 2) s
  | acc32 d => exact accumulate_during k n ws (fin := (·.completeField d 4)) (completeField_during k n ws d 4) s
  | acclen => exact accumulate_during k n ws (finishLength_during k n ws) s
  | skip =>
    simp only [runByteOp, execSkip]
    refine takeInput_during k n ws (fun b t => ?_) s
    exact congrArg Host.Outcome.next <|
      finishAt_during k n ws (fin := (·.advance 2)) (fun _ => rfl) { t with subIndex := t.subIndex + 1#3 }
  | payf c => exact copyPayload_during k n ws (fun _ => rfl) s
  | payv => exact copyPayload_during k n ws (fun _ => rfl) s
  | tsum =>
    simp only [runByteOp, execTsum]
    refine takeInput_during k n ws (fun b t => storeByte_during k n ws (fun u => ?_) _ b t) s
    split <;> rfl
  | tcrc => exact accumulate_during k n ws (fun _ => rfl) s

end

/-- So a STEP does the same within an ACQUIRE as outside. -/
theorem stepByte_during {b : Byte} {s t : State} (h : stepByte b s = .next t) (k n : Half) (ws : List RdWord) :
    stepByte b (s.during k n ws) = .next (t.during k n ws) := by
  obtain ⟨op, ho, hrun⟩ := stepByte_eq_next h
  rw [stepByte_eq_runByteOp (s := s.during k n ws) ho]
  exact (runByteOp_during k n ws op (s.latch b)).trans (congrArg (inAcquire k n ws) hrun)

/-! ### The decoder between two attempts -/

/-- A stream answers from every state with the cursor invariant and nothing in progress, and leaves nothing in progress. -/
theorem feed_answers {s : State} (h : CursorInv s) (hs : s.busy = false) (bs : List Byte) :
    ∃ t, feed bs s = .next t ∧ t.busy = false ∧ t.cfg = s.cfg := by
  induction bs generalizing s with
  | nil => exact ⟨s, rfl, hs, rfl⟩
  | cons b bs ih =>
    obtain ⟨u, hu⟩ := stepByte_answers h b
    have htook := stepByte_tookByte hu
    obtain ⟨hn, -⟩ := busy_eq_false_iff.1 hs
    have hidle : u.busy = false := busy_eq_false_iff.2 ⟨htook.budget.trans hn, htook.byteIn⟩
    obtain ⟨t, ht, htidle, hcfg⟩ := ih (stepByte_reportInv h hu).cursorInv hidle
    refine ⟨t, ?_, htidle, hcfg.trans htook.cfg⟩
    rw [feed, execStep_of_not_busy hs, hu]
    exact ht

theorem feed_singleton (b : Byte) (s : State) : feed [b] s = exec (.step b) s := andThen_next_right _

theorem answeredBytes_append (xs ys : List ReadAnswer) : answeredBytes (xs ++ ys) = answeredBytes xs ++ answeredBytes ys := by
  induction xs with
  | nil => rfl
  | cons x xs ih => cases x <;> simp [answeredBytes, ih]

/-- One answer more is its byte more, if it has one. -/
theorem feed_answeredBytes_take_succ {answers : List ReadAnswer} {k : Nat} {a : ReadAnswer} {s u : State}
    (ha : answers[k]? = some a) (hu : feed (answeredBytes (answers.take k)) s = .next u) :
    feed (answeredBytes (answers.take (k + 1))) s = feed (answeredBytes [a]) u := by
  rw [List.take_add_one, ha, answeredBytes_append, feed_append, hu]
  rfl

/-- Only a byte can make the decoder ready. -/
theorem byte_of_ready {a : ReadAnswer} {u v : State} (hnot : u.ready = false) (hv : feed (answeredBytes [a]) u = .next v)
    (hready : v.ready = true) : ∃ b, a = .byte b := by
  cases a with
  | byte b => exact ⟨b, rfl⟩
  | timeout | error =>
    obtain rfl : u = v := Host.Outcome.next.inj hv
    simp [hnot] at hready

/-! ### One attempt -/

/-- How an attempt goes on or ends: the ready test first, then an answer that ends the call, then the budget (R174, R207). -/
def State.afterAttempt (s : State) (n : Half) (ends : Bool) : State :=
  if s.ready then s.endAcquire .frame else if ends then s.endAcquire .transportError else s.testBudget n

/-- A read attempt feeds its answer's byte, if it has one, to the decoder, and counts (R174, R175, R177, R178). -/
theorem readAttempt_during {a : ReadAnswer} {u v : State} (hs : u.busy = false) (hr : u.ready = false)
    (hv : feed (answeredBytes [a]) u = .next v) (k n : Half) (ws : List RdWord) :
    readAttempt a (u.during k n ws) = .next ((v.during (k + 1#16) n ws).afterAttempt n (endsCall u.cfg a)) := by
  obtain ⟨-, hb⟩ := busy_eq_false_iff.1 hs
  cases a with
  | byte b =>
    have hv : stepByte b u = .next v := by
      rwa [answeredBytes, answeredBytes, feed_singleton, execStep_of_not_busy hs] at hv
    exact readAttempt_byte (s := u.during k n ws) hb rfl (stepByte_during hv (k + 1#16) n ws)
  | timeout =>
    obtain rfl : u = v := Host.Outcome.next.inj hv
    refine (readAttempt_timeout (s := u.during k n ws) hb rfl).trans ?_
    exact congrArg _ (if_neg (by simp [hr])).symm
  | error =>
    obtain rfl : u = v := Host.Outcome.next.inj hv
    refine (readAttempt_error (s := u.during k n ws) hb rfl).trans ?_
    exact congrArg _ (if_neg (by simp [hr])).symm

/-- An ACQUIRE that ends leaves the decoder as its last attempt left it (R176, R178). -/
theorem during_endAcquire {u : State} (h : u.budget = none) (k n : Half) (ws : List RdWord) (r : AcqResult) :
    (u.during k n ws).endAcquire r = { u with attempts := k, acqResult := r, source := ws } := by
  rw [State.endAcquire, ← h]
  rfl

/-- Settles O24: the STEP within the ACQUIRE is the one outside it; then the ready test and the budget test. -/
theorem readByteFeedsOneStep : Obligations.ReadByteFeedsOneStep := by
  unfold Obligations.ReadByteFeedsOneStep
  intro b n s h hn
  have hb := h.byteIn_eq_none (by simp [hn])
  obtain ⟨hlt, -⟩ := h.acquiring n hn
  obtain ⟨u, hu⟩ := stepByte_answers (s := { s with budget := none }) ((inv_cursorInv h).congr rfl rfl rfl rfl rfl) b
  have htook := stepByte_tookByte hu
  have hwithin : State.during { s with budget := none } (s.attempts + 1#16) n s.source =
      { s with attempts := s.attempts + 1#16 } := by rw [State.during, ← hn]
  have hstep := stepByte_during hu (s.attempts + 1#16) n s.source
  rw [hwithin] at hstep
  refine ⟨u, (execStep_of_not_busy (by simp [State.busy, hb]) b).trans hu, ?_⟩
  refine (readAttempt_byte hb hn hstep).trans ?_
  rw [testBudget_counted hlt rfl, during_endAcquire htook.budget, during_endAcquire htook.budget, ← htook.source]
  rfl

end Sys2Proof.Machine

/-! ACQUIRE's loop over the answers on hand (R174, R176, R207). -/

namespace Sys2Proof.Machine

/-! ### One attempt of the loop -/

/-- What is left of a call of budget `n` after `k` attempts, with the decoder at `u`: the budget test, then the loop over the
answers not yet taken. -/
def restOfCall (n : Half) (source : List RdWord) (k : Nat) (u : State) : Result :=
  acquireLoop (source.drop k) ((u.during (BitVec.ofNat 16 k) n (source.drop k)).testBudget n)

/-- The command is its own rest before any attempt, the flags cleared (R179). -/
theorem execAcquire_eq_restOfCall {s : State} (hs : s.busy = false) (n : Half) :
    exec (.acquire n) s = restOfCall n s.source 0 s.clearFlags := execAcquire_of_not_busy hs n

/-- An ended call takes no other answer. -/
theorem acquireLoop_endAcquire {u : State} (h : u.budget = none) (k n : Half) (ws : List RdWord) (r : AcqResult) :
    acquireLoop ws ((u.during k n ws).endAcquire r) = .next { u with attempts := k, acqResult := r, source := ws } :=
  (acquireLoop_of_ended (s := (u.during k n ws).endAcquire r) rfl).trans (congrArg _ (during_endAcquire h k n ws r))

theorem acquireLoop_cons {a : ReadAnswer} {s : State} (hn : s.budget.isSome = true) (ws : List RdWord) :
    acquireLoop (a.word :: ws) s = andThen (readAttempt a { s with source := ws }) (acquireLoop ws) := by
  rw [acquireLoop, if_neg (by simpa [Option.isSome_iff_ne_none] using hn), decodeAnswer_word]

/-- A count of attempts within the budget fits the register. -/
theorem toNat_attempts {k : Nat} {n : Half} (h : k ≤ n.toNat) : (BitVec.ofNat 16 k).toNat = k := by
  rw [BitVec.toNat_ofNat]
  omega

/-- After `N` attempts the call has ended with NO_FRAME. -/
theorem restOfCall_of_spent {u : State} (h : u.budget = none) (n : Half) (source : List RdWord) :
    restOfCall n source n.toNat u =
      .next { u with attempts := BitVec.ofNat 16 n.toNat, acqResult := .noFrame, source := source.drop n.toNat } := by
  rw [restOfCall, testBudget_of_le (by simp), acquireLoop_endAcquire h]

/-- With attempts left and no answer the call waits. -/
theorem restOfCall_of_no_answer {n : Half} {source : List RdWord} {k : Nat} (hk : k < n.toNat) (hsrc : source.drop k = [])
    (u : State) : restOfCall n source k u = .next { u with attempts := BitVec.ofNat 16 k, budget := some n, source := [] } := by
  rw [restOfCall, testBudget_of_lt (by simpa [toNat_attempts hk.le] using hk), hsrc]
  exact acquireLoop_of_no_answer (s := u.during _ n []) rfl

/-- The answer does not end the call and its byte, if it has one, completes no frame. -/
def GoesOn (s : State) (answers : List ReadAnswer) (j : Nat) : Prop :=
  (∀ a, answers[j]? = some a → endsCall s.cfg a = false) ∧
    ∃ v, feed (answeredBytes (answers.take (j + 1))) s = .next v ∧ v.ready = false

section
variable {s : State} {n : Half} {answers : List ReadAnswer} {rest : List RdWord}
  (h : CursorInv s) (hs : s.busy = false) (hr : s.ready = false)
include h hs

theorem fed_idle {bs : List Byte} {u : State} (hu : feed bs s = .next u) : u.busy = false ∧ u.cfg = s.cfg := by
  obtain ⟨t, ht, hidle⟩ := feed_answers h hs bs
  obtain rfl : t = u := Host.Outcome.next.inj (ht.symm.trans hu)
  exact hidle

/-- One attempt of the loop: the next answer's byte is fed, then the call goes on or ends. -/
theorem restOfCall_attempt {u v : State} {a : ReadAnswer} {k : Nat} (hk : k < n.toNat) (ha : answers[k]? = some a)
    (hu : feed (answeredBytes (answers.take k)) s = .next u) (hnot : u.ready = false)
    (hv : feed (answeredBytes (answers.take (k + 1))) s = .next v) {source : List RdWord}
    (hsrc : source = answers.map ReadAnswer.word ++ rest) :
    restOfCall n source k u = acquireLoop (source.drop (k + 1))
      ((v.during (BitVec.ofNat 16 (k + 1)) n (source.drop (k + 1))).afterAttempt n (endsCall s.cfg a)) := by
  obtain ⟨hidle, hcfg⟩ := fed_idle h hs hu
  rw [feed_answeredBytes_take_succ ha hu] at hv
  have hget : source[k]? = some a.word := by
    rw [hsrc, List.getElem?_append_left (by simpa using (List.getElem?_eq_some_iff.1 ha).1), List.getElem?_map, ha]
    rfl
  obtain ⟨hlt, hword⟩ := List.getElem?_eq_some_iff.1 hget
  have hattempt := readAttempt_during hidle hnot hv (BitVec.ofNat 16 k) n (source.drop (k + 1))
  rw [restOfCall, List.drop_eq_getElem_cons hlt, hword, testBudget_of_lt (by simpa [toNat_attempts hk.le] using hk),
    acquireLoop_cons rfl, BitVec.ofNat_add, ← hcfg]
  exact congrArg (andThen · _) hattempt

include hr

/-- As long as the answers go on, so does the loop. -/
theorem restOfCall_of_goesOn {source : List RdWord} (hsrc : source = answers.map ReadAnswer.word ++ rest) (k : Nat)
    (hkn : k ≤ n.toNat) (hk : k ≤ answers.length) (hon : ∀ i < k, GoesOn s answers i) :
    ∃ u, feed (answeredBytes (answers.take k)) s = .next u ∧ u.ready = false ∧
      restOfCall n source 0 s = restOfCall n source k u := by
  induction k with
  | zero => exact ⟨s, rfl, hr, rfl⟩
  | succ k ih =>
    obtain ⟨u, hu, hnot, hrest⟩ := ih (by omega) (by omega) fun i hi => hon i (by omega)
    obtain ⟨hends, v, hv, hvnot⟩ := hon k (by omega)
    have ha : answers[k]? = some answers[k] := List.getElem?_eq_getElem (by omega)
    refine ⟨v, hv, hvnot, hrest.trans ?_⟩
    rw [restOfCall_attempt h hs (by omega) ha hu hnot hv hsrc, hends _ ha, State.afterAttempt, if_neg (by simp [hvnot])]
    rfl

/-- The first answer that does not go on ends the call, with FRAME if its byte completes one. -/
theorem restOfCall_stops {source : List RdWord} (hsrc : source = answers.map ReadAnswer.word ++ rest) {k : Nat}
    (hkn : k < n.toNat) (hk : k < answers.length) (hon : ∀ i < k, GoesOn s answers i) (hstop : ¬ GoesOn s answers k) :
    ∃ v r, feed (answeredBytes (answers.take (k + 1))) s = .next v ∧
      restOfCall n source 0 s =
        .next { v with attempts := BitVec.ofNat 16 (k + 1), acqResult := r, source := source.drop (k + 1) } ∧
      ((r = .frame ∧ v.ready = true ∧ ∃ b, answers[k]? = some (.byte b)) ∨
        (r = .transportError ∧ v.ready = false ∧ ∃ a, answers[k]? = some a ∧ endsCall s.cfg a = true)) := by
  obtain ⟨u, hu, hnot, hrest⟩ := restOfCall_of_goesOn h hs hr hsrc k hkn.le hk.le hon
  obtain ⟨v, hv, hidle, -⟩ := feed_answers h hs (answeredBytes (answers.take (k + 1)))
  obtain ⟨hbudget, -⟩ := busy_eq_false_iff.1 hidle
  have ha : answers[k]? = some answers[k] := List.getElem?_eq_getElem hk
  rw [restOfCall_attempt h hs hkn ha hu hnot hv hsrc, State.afterAttempt, State.during_ready] at hrest
  cases hready : v.ready with
  | true =>
    obtain ⟨b, hb⟩ := byte_of_ready hnot ((feed_answeredBytes_take_succ ha hu).symm.trans hv) hready
    rw [if_pos hready, acquireLoop_endAcquire hbudget] at hrest
    exact ⟨v, .frame, hv, hrest, .inl ⟨rfl, hready, b, hb ▸ ha⟩⟩
  | false =>
    have hends : endsCall s.cfg answers[k] = true := by
      by_contra hgo
      refine hstop ⟨fun a haa => ?_, v, hv, hready⟩
      obtain rfl : answers[k] = a := Option.some.inj (ha.symm.trans haa)
      simpa using hgo
    rw [if_neg (by simp [hready]), if_pos hends, acquireLoop_endAcquire hbudget] at hrest
    exact ⟨v, .transportError, hv, hrest, .inr ⟨rfl, hready, _, ha, hends⟩⟩

end

/-- A property holds of every number below `m`, or there is a first that it fails of. -/
theorem forall_lt_or_first (P : Nat → Prop) (m : Nat) : (∀ i < m, P i) ∨ ∃ j < m, (∀ i < j, P i) ∧ ¬ P j := by
  by_cases hstops : ∃ j, j < m ∧ ¬ P j
  · classical
    obtain ⟨j, ⟨hj, hstop⟩, hfirst⟩ := Nat.findX hstops
    exact .inr ⟨j, hj, fun i hi => by simpa [hi.trans hj] using hfirst i hi, hstop⟩
  · exact .inl (by simpa using hstops)

/-- Settles O23: among the answers to the call's attempts one is the first that ends it, or all go on; then the `N` attempts are
made, or the call waits with every answer taken. -/
theorem acquireFeedsExactlyItsAnswers : Obligations.AcquireFeedsExactlyItsAnswers := by
  unfold Obligations.AcquireFeedsExactlyItsAnswers
  intro s n answers rest hinv hs hsrc henough
  have h : CursorInv s.clearFlags := (inv_cursorInv hinv).congr rfl rfl rfl rfl rfl
  rw [execAcquire_eq_restOfCall hs]
  obtain hon | ⟨j, hj, hon, hstop⟩ := forall_lt_or_first (GoesOn s.clearFlags answers) (min n.toNat answers.length)
  · have hends : ∀ i a, i < n.toNat → answers[i]? = some a → endsCall s.cfg a = false := fun i a hin ha =>
      (hon i (lt_min hin (List.getElem?_eq_some_iff.1 ha).1)).1 a ha
    obtain ⟨u, hu, hready, hrun⟩ :=
      restOfCall_of_goesOn h hs rfl hsrc _ (min_le_left ..) (min_le_right ..) hon
    obtain hspent | hshort := le_or_gt n.toNat answers.length
    · rw [min_eq_left hspent] at hon hu hrun
      obtain ⟨hidle, -⟩ := fed_idle h hs hu
      obtain ⟨hbudget, -⟩ := busy_eq_false_iff.1 hidle
      refine ⟨n.toNat, u, _, le_rfl, hspent, hu, hrun.trans (restOfCall_of_spent hbudget n _),
        fun i hi => hon i (by omega), .inr (.inr (.inl ?_))⟩
      exact ⟨fun a hpos ha => hends _ a (by omega) ha, rfl, hready, rfl⟩
    · rw [min_eq_right hshort.le] at hon hu hrun
      have hrest : rest = [] := henough.resolve_left (by omega)
      refine ⟨answers.length, u, _, hshort.le, le_rfl, hu,
        hrun.trans (restOfCall_of_no_answer hshort (by simp [hsrc, hrest]) u), fun i hi => hon i (by omega),
        .inr (.inr (.inr ⟨fun a ha => ?_, rfl, hshort, hrest, hready, rfl⟩))⟩
      obtain ⟨i, hi, rfl⟩ := List.mem_iff_getElem.1 ha
      exact hends i _ (by omega) (List.getElem?_eq_getElem hi)
  · obtain ⟨hjn, hj⟩ := lt_min_iff.1 hj
    obtain ⟨v, r, hv, hrun, hend⟩ := restOfCall_stops h hs rfl hsrc hjn hj hon hstop
    refine ⟨j + 1, v, _, hjn, hj, hv, hrun, fun i hi => hon i (by omega), ?_⟩
    obtain ⟨rfl, hready, b, hb⟩ | ⟨rfl, hready, a, ha, hends⟩ := hend
    · exact .inl ⟨b, by omega, hb, hready, rfl⟩
    · exact .inr (.inl ⟨a, by omega, ha, hends, hready, rfl⟩)

end Sys2Proof.Machine

/-! The conditions of a STEP (R201 to R205) and their entry (R210). -/

namespace Sys2Proof.Machine

/-- The condition a byte operation can record; `none` for one that has no condition (R201 to R205). -/
def raisedEvent : ByteOp → Event
  | .sync _ => .syncMismatch
  | .cver _ | .acclen => .headerFieldInvalid
  | .tsum => .checksumMismatch
  | .tcrc => .crcMismatch
  | .pass | .acc16 _ | .acc32 _ | .skip | .payf _ | .payv => .none

/-- An operation with a condition completes no field but `messageLength`. -/
theorem writtenField_ne_of_raisedEvent {op : ByteOp} {d : Dest} (hop : raisedEvent op ≠ .none) (hd : d ≠ .messageLength) :
    writtenField op ≠ some d := by
  cases op with
  | acclen => exact fun h => hd (Option.some.inj h).symm
  | sync _ | cver _ | tsum | tcrc => exact nofun
  | pass | acc16 _ | acc32 _ | skip | payf _ | payv => exact absurd rfl hop

theorem raisedEvent_eq_checksumMismatch {op : ByteOp} (h : raisedEvent op = .checksumMismatch) : op = .tsum := by
  cases op with
  | tsum => rfl
  | sync _ | cver _ | pass | acc16 _ | acc32 _ | acclen | skip | payf _ | payv | tcrc => cases h

theorem raisedEvent_eq_crcMismatch {op : ByteOp} (h : raisedEvent op = .crcMismatch) : op = .tcrc := by
  cases op with
  | tcrc => rfl
  | sync _ | cver _ | pass | acc16 _ | acc32 _ | acclen | skip | payf _ | payv | tsum => cases h

theorem event_writeField_advance (s : State) (d : Dest) (v w : Nat) : ((s.writeField d v).advance w).event = s.event := by
  simp

/-- An accumulate entry leaves `event`, or ends with `fin` on a state with the same `event`. -/
theorem accumulate_event_cases {w : Nat} {fin : State → State} {s t : State} (h : accumulate w fin s = .next t) :
    t.event = s.event ∨ ∃ u, u.event = s.event ∧ t = fin u := by
  obtain ⟨b, -, -, rfl⟩ := accumulate_eq_next h
  split
  · refine .inr ⟨_, ?_, rfl⟩
    rfl
  · exact .inl rfl

/-- ACCLEN's end records an event only where it refuses the length (R115, R202). -/
theorem finishLength_of_event {u : State} (hu : u.event = .none) (h : (finishLength u).event ≠ .none) :
    (finishLength u).event = .headerFieldInvalid ∧ (finishLength u).cur = resync := by
  obtain hfin | hfin := finishLength_cases u <;> rw [hfin] at h ⊢
  · exact ⟨rfl, rfl⟩
  · exact absurd ((event_writeField_advance u _ _ 2).trans hu) h

/-- TCRC's end records an event only on a mismatch (R153, R204). -/
theorem finishCrc_of_event {u : State} (h : (finishCrc u).event ≠ .none) :
    (finishCrc u).event = .crcMismatch ∧ (finishCrc u).checkOk = false := by
  obtain ⟨-, hevent⟩ := finishCrc_verdict u
  cases hok : (finishCrc u).checkOk <;> rw [hok] at hevent
  · exact ⟨hevent, rfl⟩
  · exact absurd hevent h

section
variable {op : ByteOp} {s t : State} (hs : s.event = .none) (ht : t.event ≠ .none)
include hs ht

/-- TSUM records an event only where it rejects the frame (R203). -/
theorem execTsum_of_event (hrun : execTsum s = .next t) :
    t.event = .checksumMismatch ∧ t.cur = resync ∧ t.checkOk = false ∧ t.length = s.length ∧ t.ready = s.ready := by
  obtain ⟨b, -, -, ⟨-, rfl⟩ | ⟨-, rfl⟩⟩ := execTsum_eq_next hrun
  · exact absurd hs ht
  · exact ⟨rfl, rfl, rfl, rfl, rfl⟩

/-- TCRC records an event only at its fourth byte, where it reports the frame with `check_ok` clear (R153, R204). -/
theorem execTcrc_of_event (hrun : execTcrc s = .next t) :
    t.event = .crcMismatch ∧ t.cur = resync ∧ t.checkOk = false ∧ t.ready = true := by
  obtain hsame | ⟨u, -, rfl⟩ := accumulate_event_cases ((execTcrc_eq s).symm.trans hrun)
  · exact absurd (hsame.trans hs) ht
  · obtain ⟨hevent, hok⟩ := finishCrc_of_event ht
    exact ⟨hevent, rfl, hok, rfl⟩

/-- A byte operation that records an event records its own condition, at (Sync, 0, 0) (R210). -/
theorem runByteOp_raisedEvent (hrun : runByteOp op s = .next t) : t.event = raisedEvent op ∧ t.cur = resync := by
  cases op with
  | sync c =>
    obtain ⟨b, -, ⟨-, -, rfl⟩ | ⟨-, rfl⟩⟩ := execSync_eq_next hrun
    · exact absurd hs ht
    · exact ⟨rfl, rfl⟩
  | cver c =>
    obtain ⟨b, -, ⟨-, -, rfl⟩ | ⟨-, rfl⟩⟩ := execCver_eq_next hrun
    · exact absurd hs ht
    · exact ⟨rfl, rfl⟩
  | acclen =>
    obtain hsame | ⟨u, hu, rfl⟩ := accumulate_event_cases (show execAcclen s = .next t from hrun)
    · exact absurd (hsame.trans hs) ht
    · exact finishLength_of_event (hu.trans hs) ht
  | tsum =>
    obtain ⟨hevent, hcur, -⟩ := execTsum_of_event hs ht hrun
    exact ⟨hevent, hcur⟩
  | tcrc =>
    obtain ⟨hevent, hcur, -⟩ := execTcrc_of_event hs ht hrun
    exact ⟨hevent, hcur⟩
  | acc16 d =>
    have hsame : t.event = s.event := accumulate_keeps State.event (fun _ _ _ _ => rfl)
      (fun u => event_writeField_advance u d (u.leAt u.byteIndex.toNat 2) 2) hrun
    exact absurd (hsame.trans hs) ht
  | acc32 d =>
    have hsame : t.event = s.event := accumulate_keeps State.event (fun _ _ _ _ => rfl)
      (fun u => event_writeField_advance u d (u.leAt u.byteIndex.toNat 4) 4) hrun
    exact absurd (hsame.trans hs) ht
  | pass =>
    obtain ⟨b, -, -, rfl⟩ := execPass_eq_next hrun
    exact absurd hs ht
  | skip =>
    obtain ⟨b, -, rfl⟩ := execSkip_eq_next hrun
    split at ht <;> exact absurd hs ht
  | payf n =>
    obtain ⟨b, -, -, rfl⟩ := copyPayload_eq_next hrun
    exact absurd hs ht
  | payv =>
    obtain ⟨b, -, -, rfl⟩ := copyPayload_eq_next hrun
    exact absurd hs ht

end

/-- A byte operation other than TSUM and TCRC keeps the report registers and `ready` (R22, R29, R30, R32). -/
theorem runByteOp_sameReport {op : ByteOp} {s t : State} (hsum : op ≠ .tsum) (hcrc : op ≠ .tcrc)
    (hrun : runByteOp op s = .next t) : SameReport s t ∧ t.ready = s.ready :=
  (resultsAreWrittenOnlyAtCompletion op s t ((exec_byteOp op s).trans hrun)).1 ⟨hsum, .inl hcrc⟩

/-- Settles O38: the event is the operation's own condition, so the event names the operation: one that is not a completion,
TSUM where it rejects, or TCRC at its fourth byte. -/
theorem everyConditionResyncs : Obligations.EveryConditionResyncs := by
  unfold Obligations.EveryConditionResyncs
  intro op s t hrun hs ht
  rw [exec_byteOp] at hrun
  obtain ⟨hevent, hcur⟩ := runByteOp_raisedEvent hs ht hrun
  refine ⟨hcur, fun d hd => ?fields, fun hcond => ?uncompleted, fun hcond => ?checksum, fun hcond => ?crc⟩
  case fields => exact runByteOp_readField_of_ne (writtenField_ne_of_raisedEvent (hevent ▸ ht) hd) hrun
  case uncompleted =>
    rw [hevent] at hcond
    refine runByteOp_sameReport ?_ ?_ hrun
    · rintro rfl
      simp [raisedEvent] at hcond
    · rintro rfl
      simp [raisedEvent] at hcond
  case checksum =>
    obtain rfl := raisedEvent_eq_checksumMismatch (hevent ▸ hcond)
    obtain ⟨-, -, hkept⟩ := execTsum_of_event hs ht hrun
    exact hkept
  case crc =>
    obtain rfl := raisedEvent_eq_crcMismatch (hevent ▸ hcond)
    obtain ⟨-, -, hreported⟩ := execTcrc_of_event hs ht hrun
    exact hreported

end Sys2Proof.Machine

/-! The reset state and RESET (R230, R39, R170). -/

namespace Sys2Proof.Machine

theorem execReset_of_not_busy {s : State} (h : s.busy = false) : exec .reset s = .next s.resetRegisters :=
  if_neg (by simp [h])

/-- The five components RESET leaves as they are decide whether it leaves the reset state of R39. -/
theorem resetRegisters_eq_resetOf_iff {s : State} :
    s.resetRegisters = State.resetOf s.cfg ↔
      s.byteIn = none ∧ s.budget = none ∧ s.commands = [] ∧ s.source = [] ∧ s.freeReads = 0 := by
  simp [State.resetRegisters, State.setCursor, State.resetOf]

/-- Settles O21: with nothing in progress and nothing waiting, what RESET leaves as it is already has its reset value; a reset
state is such a state. -/
theorem resetStateIsWhatResetLeaves : Obligations.ResetStateIsWhatResetLeaves := by
  unfold Obligations.ResetStateIsWhatResetLeaves
  have hreset (s : State) (hs : s.busy = false) (hc : s.commands = []) (hr : s.source = []) (hf : s.freeReads = 0) :
      exec .reset s = .next (State.resetOf s.cfg) := by
    obtain ⟨hn, hb⟩ := busy_eq_false_iff.1 hs
    rw [execReset_of_not_busy hs, resetRegisters_eq_resetOf_iff.2 ⟨hb, hn, hc, hr, hf⟩]
  exact fun c => ⟨hreset (State.resetOf c) rfl rfl rfl rfl, rfl, hreset⟩

end Sys2Proof.Machine
